-- ==== Sys2Proof/Word.lean ====
section
/-! DEFINITION. Word sizes, the two instruction sets and a raw instruction (00_scope.md R16, 30_encoding.md R150). -/

namespace Sys2Proof

/-- A 32-bit word: registers, addresses and ARM instructions (R16). -/
abbrev Word := BitVec 32

/-- A 16-bit halfword: Thumb instructions and the wait-state register (R16, R82). -/
abbrev Half := BitVec 16

/-- The unit of memory (R100). -/
abbrev Byte := BitVec 8

/-- The instruction sets selected by CPSR.T (R150). -/
inductive Isa where
  | arm
  | thumb
  deriving DecidableEq, Repr

/-- One raw instruction: a 32-bit ARM word or a 16-bit Thumb halfword (R150). -/
inductive Code where
  | arm (raw : Word)
  | thumb (raw : Half)
  deriving DecidableEq, Repr

/-- The bytes of a raw instruction in the order memory holds them, little-endian (R106, R150). -/
def Code.bytes : Code → List Byte
  | .arm w => [w.extractLsb' 0 8, w.extractLsb' 8 8, w.extractLsb' 16 8, w.extractLsb' 24 8]
  | .thumb h => [h.extractLsb' 0 8, h.extractLsb' 8 8]

end Sys2Proof
end

