-- ==== Sys2Proof/Syntax.lean ====
section
/-! DEFINITION. The instructions: one constructor per row of spec/opcode_table.json, carrying the fields the row names. Bits
the table calls ignored are not carried (R163), except the comment field of SWI, which is its operand (R374, assumption 16). -/

namespace Sys2Proof

/-- A visible general register number, R0 to R15 (R51). -/
abbrev Reg := Fin 16

/-- A 3-bit Thumb register field, R0 to R7 (R180). -/
abbrev LoReg := Fin 8

/-- The sixteen values of a condition field (R220). -/
inductive Cond where
  | eq | ne | cs | cc | mi | pl | vs | vc | hi | ls | ge | lt | gt | le | al | nv
  deriving DecidableEq, Repr

/-- The shift types of the barrel shifter (R152, R225). -/
inductive ShiftType where
  | lsl | lsr | asr | ror
  deriving DecidableEq, Repr

/-- The sixteen data-processing operations, in the order of their opcode field (R260). -/
inductive AluOp where
  | and | eor | sub | rsb | add | adc | sbc | rsc | tst | teq | cmp | cmn | orr | mov | bic | mvn
  deriving DecidableEq, Repr

/-- The field mask of MSR, bits 19 to 16 (R153, R286). -/
structure PsrMask where
  f : Bool
  s : Bool
  x : Bool
  c : Bool
  deriving DecidableEq, Repr

/-- The instructions of spec/opcode_table.json, row by row. -/
inductive Instr where
  -- DataProcessing, immediate
  /-- `AND_imm`, R268. -/
  | andImm (cond : Cond) (sf : Bool) (rn rd : Reg) (rotate : BitVec 4) (imm : BitVec 8)
  -- DataProcessing, immediate shift
  /-- `AND_shimm`, R268. -/
  | andShimm (cond : Cond) (sf : Bool) (rn rd : Reg) (amount : BitVec 5) (ty : ShiftType) (rm : Reg)
  -- DataProcessing, register shift
  /-- `AND_shreg`, R268. -/
  | andShreg (cond : Cond) (sf : Bool) (rn rd rs : Reg) (ty : ShiftType) (rm : Reg)
  -- DataProcessing, immediate
  /-- `EOR_imm`, R269. -/
  | eorImm (cond : Cond) (sf : Bool) (rn rd : Reg) (rotate : BitVec 4) (imm : BitVec 8)
  -- DataProcessing, immediate shift
  /-- `EOR_shimm`, R269. -/
  | eorShimm (cond : Cond) (sf : Bool) (rn rd : Reg) (amount : BitVec 5) (ty : ShiftType) (rm : Reg)
  -- DataProcessing, register shift
  /-- `EOR_shreg`, R269. -/
  | eorShreg (cond : Cond) (sf : Bool) (rn rd rs : Reg) (ty : ShiftType) (rm : Reg)
  -- DataProcessing, immediate
  /-- `SUB_imm`, R270. -/
  | subImm (cond : Cond) (sf : Bool) (rn rd : Reg) (rotate : BitVec 4) (imm : BitVec 8)
  -- DataProcessing, immediate shift
  /-- `SUB_shimm`, R270. -/
  | subShimm (cond : Cond) (sf : Bool) (rn rd : Reg) (amount : BitVec 5) (ty : ShiftType) (rm : Reg)
  -- DataProcessing, register shift
  /-- `SUB_shreg`, R270. -/
  | subShreg (cond : Cond) (sf : Bool) (rn rd rs : Reg) (ty : ShiftType) (rm : Reg)
  -- DataProcessing, immediate
  /-- `RSB_imm`, R271. -/
  | rsbImm (cond : Cond) (sf : Bool) (rn rd : Reg) (rotate : BitVec 4) (imm : BitVec 8)
  -- DataProcessing, immediate shift
  /-- `RSB_shimm`, R271. -/
  | rsbShimm (cond : Cond) (sf : Bool) (rn rd : Reg) (amount : BitVec 5) (ty : ShiftType) (rm : Reg)
  -- DataProcessing, register shift
  /-- `RSB_shreg`, R271. -/
  | rsbShreg (cond : Cond) (sf : Bool) (rn rd rs : Reg) (ty : ShiftType) (rm : Reg)
  -- DataProcessing, immediate
  /-- `ADD_imm`, R272. -/
  | addImm (cond : Cond) (sf : Bool) (rn rd : Reg) (rotate : BitVec 4) (imm : BitVec 8)
  -- DataProcessing, immediate shift
  /-- `ADD_shimm`, R272. -/
  | addShimm (cond : Cond) (sf : Bool) (rn rd : Reg) (amount : BitVec 5) (ty : ShiftType) (rm : Reg)
  -- DataProcessing, register shift
  /-- `ADD_shreg`, R272. -/
  | addShreg (cond : Cond) (sf : Bool) (rn rd rs : Reg) (ty : ShiftType) (rm : Reg)
  -- DataProcessing, immediate
  /-- `ADC_imm`, R273. -/
  | adcImm (cond : Cond) (sf : Bool) (rn rd : Reg) (rotate : BitVec 4) (imm : BitVec 8)
  -- DataProcessing, immediate shift
  /-- `ADC_shimm`, R273. -/
  | adcShimm (cond : Cond) (sf : Bool) (rn rd : Reg) (amount : BitVec 5) (ty : ShiftType) (rm : Reg)
  -- DataProcessing, register shift
  /-- `ADC_shreg`, R273. -/
  | adcShreg (cond : Cond) (sf : Bool) (rn rd rs : Reg) (ty : ShiftType) (rm : Reg)
  -- DataProcessing, immediate
  /-- `SBC_imm`, R274. -/
  | sbcImm (cond : Cond) (sf : Bool) (rn rd : Reg) (rotate : BitVec 4) (imm : BitVec 8)
  -- DataProcessing, immediate shift
  /-- `SBC_shimm`, R274. -/
  | sbcShimm (cond : Cond) (sf : Bool) (rn rd : Reg) (amount : BitVec 5) (ty : ShiftType) (rm : Reg)
  -- DataProcessing, register shift
  /-- `SBC_shreg`, R274. -/
  | sbcShreg (cond : Cond) (sf : Bool) (rn rd rs : Reg) (ty : ShiftType) (rm : Reg)
  -- DataProcessing, immediate
  /-- `RSC_imm`, R275. -/
  | rscImm (cond : Cond) (sf : Bool) (rn rd : Reg) (rotate : BitVec 4) (imm : BitVec 8)
  -- DataProcessing, immediate shift
  /-- `RSC_shimm`, R275. -/
  | rscShimm (cond : Cond) (sf : Bool) (rn rd : Reg) (amount : BitVec 5) (ty : ShiftType) (rm : Reg)
  -- DataProcessing, register shift
  /-- `RSC_shreg`, R275. -/
  | rscShreg (cond : Cond) (sf : Bool) (rn rd rs : Reg) (ty : ShiftType) (rm : Reg)
  -- DataProcessing, immediate
  /-- `TST_imm`, R276. -/
  | tstImm (cond : Cond) (rn rd : Reg) (rotate : BitVec 4) (imm : BitVec 8)
  -- DataProcessing, immediate shift
  /-- `TST_shimm`, R276. -/
  | tstShimm (cond : Cond) (rn rd : Reg) (amount : BitVec 5) (ty : ShiftType) (rm : Reg)
  -- DataProcessing, register shift
  /-- `TST_shreg`, R276. -/
  | tstShreg (cond : Cond) (rn rd rs : Reg) (ty : ShiftType) (rm : Reg)
  -- DataProcessing, immediate
  /-- `TEQ_imm`, R277. -/
  | teqImm (cond : Cond) (rn rd : Reg) (rotate : BitVec 4) (imm : BitVec 8)
  -- DataProcessing, immediate shift
  /-- `TEQ_shimm`, R277. -/
  | teqShimm (cond : Cond) (rn rd : Reg) (amount : BitVec 5) (ty : ShiftType) (rm : Reg)
  -- DataProcessing, register shift
  /-- `TEQ_shreg`, R277. -/
  | teqShreg (cond : Cond) (rn rd rs : Reg) (ty : ShiftType) (rm : Reg)
  -- DataProcessing, immediate
  /-- `CMP_imm`, R278. -/
  | cmpImm (cond : Cond) (rn rd : Reg) (rotate : BitVec 4) (imm : BitVec 8)
  -- DataProcessing, immediate shift
  /-- `CMP_shimm`, R278. -/
  | cmpShimm (cond : Cond) (rn rd : Reg) (amount : BitVec 5) (ty : ShiftType) (rm : Reg)
  -- DataProcessing, register shift
  /-- `CMP_shreg`, R278. -/
  | cmpShreg (cond : Cond) (rn rd rs : Reg) (ty : ShiftType) (rm : Reg)
  -- DataProcessing, immediate
  /-- `CMN_imm`, R279. -/
  | cmnImm (cond : Cond) (rn rd : Reg) (rotate : BitVec 4) (imm : BitVec 8)
  -- DataProcessing, immediate shift
  /-- `CMN_shimm`, R279. -/
  | cmnShimm (cond : Cond) (rn rd : Reg) (amount : BitVec 5) (ty : ShiftType) (rm : Reg)
  -- DataProcessing, register shift
  /-- `CMN_shreg`, R279. -/
  | cmnShreg (cond : Cond) (rn rd rs : Reg) (ty : ShiftType) (rm : Reg)
  -- DataProcessing, immediate
  /-- `ORR_imm`, R280. -/
  | orrImm (cond : Cond) (sf : Bool) (rn rd : Reg) (rotate : BitVec 4) (imm : BitVec 8)
  -- DataProcessing, immediate shift
  /-- `ORR_shimm`, R280. -/
  | orrShimm (cond : Cond) (sf : Bool) (rn rd : Reg) (amount : BitVec 5) (ty : ShiftType) (rm : Reg)
  -- DataProcessing, register shift
  /-- `ORR_shreg`, R280. -/
  | orrShreg (cond : Cond) (sf : Bool) (rn rd rs : Reg) (ty : ShiftType) (rm : Reg)
  -- DataProcessing, immediate
  /-- `MOV_imm`, R281. -/
  | movImm (cond : Cond) (sf : Bool) (rn rd : Reg) (rotate : BitVec 4) (imm : BitVec 8)
  -- DataProcessing, immediate shift
  /-- `MOV_shimm`, R281. -/
  | movShimm (cond : Cond) (sf : Bool) (rn rd : Reg) (amount : BitVec 5) (ty : ShiftType) (rm : Reg)
  -- DataProcessing, register shift
  /-- `MOV_shreg`, R281. -/
  | movShreg (cond : Cond) (sf : Bool) (rn rd rs : Reg) (ty : ShiftType) (rm : Reg)
  -- DataProcessing, immediate
  /-- `BIC_imm`, R282. -/
  | bicImm (cond : Cond) (sf : Bool) (rn rd : Reg) (rotate : BitVec 4) (imm : BitVec 8)
  -- DataProcessing, immediate shift
  /-- `BIC_shimm`, R282. -/
  | bicShimm (cond : Cond) (sf : Bool) (rn rd : Reg) (amount : BitVec 5) (ty : ShiftType) (rm : Reg)
  -- DataProcessing, register shift
  /-- `BIC_shreg`, R282. -/
  | bicShreg (cond : Cond) (sf : Bool) (rn rd rs : Reg) (ty : ShiftType) (rm : Reg)
  -- DataProcessing, immediate
  /-- `MVN_imm`, R283. -/
  | mvnImm (cond : Cond) (sf : Bool) (rn rd : Reg) (rotate : BitVec 4) (imm : BitVec 8)
  -- DataProcessing, immediate shift
  /-- `MVN_shimm`, R283. -/
  | mvnShimm (cond : Cond) (sf : Bool) (rn rd : Reg) (amount : BitVec 5) (ty : ShiftType) (rm : Reg)
  -- DataProcessing, register shift
  /-- `MVN_shreg`, R283. -/
  | mvnShreg (cond : Cond) (sf : Bool) (rn rd rs : Reg) (ty : ShiftType) (rm : Reg)
  -- MRS
  /-- `MRS`, R284. -/
  | mrs (cond : Cond) (spsr : Bool) (rd : Reg)
  -- MSR, register
  /-- `MSR_reg`, R285. -/
  | msrReg (cond : Cond) (spsr : Bool) (mask : PsrMask) (rm : Reg)
  -- MSR, immediate
  /-- `MSR_imm`, R285. -/
  | msrImm (cond : Cond) (spsr : Bool) (mask : PsrMask) (rotate : BitVec 4) (imm : BitVec 8)
  -- Multiply
  /-- `MUL`, R303. -/
  | mul (cond : Cond) (sf : Bool) (rd rs rm : Reg)
  /-- `MLA`, R304. -/
  | mla (cond : Cond) (sf : Bool) (rd rn rs rm : Reg)
  -- MultiplyLong
  /-- `UMULL`, R305. -/
  | umull (cond : Cond) (sf : Bool) (rdHi rdLo rs rm : Reg)
  /-- `UMLAL`, R306. -/
  | umlal (cond : Cond) (sf : Bool) (rdHi rdLo rs rm : Reg)
  /-- `SMULL`, R307. -/
  | smull (cond : Cond) (sf : Bool) (rdHi rdLo rs rm : Reg)
  /-- `SMLAL`, R308. -/
  | smlal (cond : Cond) (sf : Bool) (rdHi rdLo rs rm : Reg)
  -- SingleDataSwap
  /-- `SWP`, R360. -/
  | swp (cond : Cond) (rn rd rm : Reg)
  /-- `SWPB`, R361. -/
  | swpb (cond : Cond) (rn rd rm : Reg)
  -- BranchExchange
  /-- `BX`, R373. -/
  | bx (cond : Cond) (rm : Reg)
  -- SingleDataTransfer, immediate offset
  /-- `STR_imm`, R323. -/
  | strImm (cond : Cond) (p u w : Bool) (rn rd : Reg) (imm : BitVec 12)
  -- SingleDataTransfer, register offset
  /-- `STR_reg`, R323. -/
  | strReg (cond : Cond) (p u w : Bool) (rn rd : Reg) (amount : BitVec 5) (ty : ShiftType) (rm : Reg)
  -- SingleDataTransfer, immediate offset, user-mode access
  /-- `STRT_imm`, R328. -/
  | strtImm (cond : Cond) (u : Bool) (rn rd : Reg) (imm : BitVec 12)
  -- SingleDataTransfer, register offset, user-mode access
  /-- `STRT_reg`, R328. -/
  | strtReg (cond : Cond) (u : Bool) (rn rd : Reg) (amount : BitVec 5) (ty : ShiftType) (rm : Reg)
  -- SingleDataTransfer, immediate offset
  /-- `LDR_imm`, R321. -/
  | ldrImm (cond : Cond) (p u w : Bool) (rn rd : Reg) (imm : BitVec 12)
  -- SingleDataTransfer, register offset
  /-- `LDR_reg`, R321. -/
  | ldrReg (cond : Cond) (p u w : Bool) (rn rd : Reg) (amount : BitVec 5) (ty : ShiftType) (rm : Reg)
  -- SingleDataTransfer, immediate offset, user-mode access
  /-- `LDRT_imm`, R326. -/
  | ldrtImm (cond : Cond) (u : Bool) (rn rd : Reg) (imm : BitVec 12)
  -- SingleDataTransfer, register offset, user-mode access
  /-- `LDRT_reg`, R326. -/
  | ldrtReg (cond : Cond) (u : Bool) (rn rd : Reg) (amount : BitVec 5) (ty : ShiftType) (rm : Reg)
  -- SingleDataTransfer, immediate offset
  /-- `STRB_imm`, R324. -/
  | strbImm (cond : Cond) (p u w : Bool) (rn rd : Reg) (imm : BitVec 12)
  -- SingleDataTransfer, register offset
  /-- `STRB_reg`, R324. -/
  | strbReg (cond : Cond) (p u w : Bool) (rn rd : Reg) (amount : BitVec 5) (ty : ShiftType) (rm : Reg)
  -- SingleDataTransfer, immediate offset, user-mode access
  /-- `STRBT_imm`, R329. -/
  | strbtImm (cond : Cond) (u : Bool) (rn rd : Reg) (imm : BitVec 12)
  -- SingleDataTransfer, register offset, user-mode access
  /-- `STRBT_reg`, R329. -/
  | strbtReg (cond : Cond) (u : Bool) (rn rd : Reg) (amount : BitVec 5) (ty : ShiftType) (rm : Reg)
  -- SingleDataTransfer, immediate offset
  /-- `LDRB_imm`, R322. -/
  | ldrbImm (cond : Cond) (p u w : Bool) (rn rd : Reg) (imm : BitVec 12)
  -- SingleDataTransfer, register offset
  /-- `LDRB_reg`, R322. -/
  | ldrbReg (cond : Cond) (p u w : Bool) (rn rd : Reg) (amount : BitVec 5) (ty : ShiftType) (rm : Reg)
  -- SingleDataTransfer, immediate offset, user-mode access
  /-- `LDRBT_imm`, R327. -/
  | ldrbtImm (cond : Cond) (u : Bool) (rn rd : Reg) (imm : BitVec 12)
  -- SingleDataTransfer, register offset, user-mode access
  /-- `LDRBT_reg`, R327. -/
  | ldrbtReg (cond : Cond) (u : Bool) (rn rd : Reg) (amount : BitVec 5) (ty : ShiftType) (rm : Reg)
  -- HalfwordTransfer, immediate offset
  /-- `STRH_imm`, R332. -/
  | strhImm (cond : Cond) (p u w : Bool) (rn rd : Reg) (imm : BitVec 8)
  -- HalfwordTransfer, register offset
  /-- `STRH_reg`, R332. -/
  | strhReg (cond : Cond) (p u w : Bool) (rn rd rm : Reg)
  -- HalfwordTransfer, immediate offset
  /-- `LDRH_imm`, R333. -/
  | ldrhImm (cond : Cond) (p u w : Bool) (rn rd : Reg) (imm : BitVec 8)
  -- HalfwordTransfer, register offset
  /-- `LDRH_reg`, R333. -/
  | ldrhReg (cond : Cond) (p u w : Bool) (rn rd rm : Reg)
  -- HalfwordTransfer, immediate offset
  /-- `LDRSB_imm`, R334. -/
  | ldrsbImm (cond : Cond) (p u w : Bool) (rn rd : Reg) (imm : BitVec 8)
  -- HalfwordTransfer, register offset
  /-- `LDRSB_reg`, R334. -/
  | ldrsbReg (cond : Cond) (p u w : Bool) (rn rd rm : Reg)
  -- HalfwordTransfer, immediate offset
  /-- `LDRSH_imm`, R335. -/
  | ldrshImm (cond : Cond) (p u w : Bool) (rn rd : Reg) (imm : BitVec 8)
  -- HalfwordTransfer, register offset
  /-- `LDRSH_reg`, R335. -/
  | ldrshReg (cond : Cond) (p u w : Bool) (rn rd rm : Reg)
  -- BlockDataTransfer
  /-- `LDMIA`, R362. -/
  | ldmia (cond : Cond) (ub w : Bool) (rn : Reg) (list : BitVec 16)
  /-- `STMIA`, R366. -/
  | stmia (cond : Cond) (ub w : Bool) (rn : Reg) (list : BitVec 16)
  /-- `LDMIB`, R363. -/
  | ldmib (cond : Cond) (ub w : Bool) (rn : Reg) (list : BitVec 16)
  /-- `STMIB`, R367. -/
  | stmib (cond : Cond) (ub w : Bool) (rn : Reg) (list : BitVec 16)
  /-- `LDMDA`, R364. -/
  | ldmda (cond : Cond) (ub w : Bool) (rn : Reg) (list : BitVec 16)
  /-- `STMDA`, R368. -/
  | stmda (cond : Cond) (ub w : Bool) (rn : Reg) (list : BitVec 16)
  /-- `LDMDB`, R365. -/
  | ldmdb (cond : Cond) (ub w : Bool) (rn : Reg) (list : BitVec 16)
  /-- `STMDB`, R369. -/
  | stmdb (cond : Cond) (ub w : Bool) (rn : Reg) (list : BitVec 16)
  -- Branch
  /-- `B`, R371. -/
  | b (cond : Cond) (imm : BitVec 24)
  /-- `BL`, R372. -/
  | bl (cond : Cond) (imm : BitVec 24)
  -- SoftwareInterrupt
  /-- `SWI`, R374. -/
  | swi (cond : Cond) (comment : BitVec 24)
  -- Thumb format 1
  /-- `T_LSL_imm`, R401. -/
  | tLslImm (imm : BitVec 5) (rs rd : LoReg)
  /-- `T_LSR_imm`, R402. -/
  | tLsrImm (imm : BitVec 5) (rs rd : LoReg)
  /-- `T_ASR_imm`, R403. -/
  | tAsrImm (imm : BitVec 5) (rs rd : LoReg)
  -- Thumb format 2
  /-- `T_ADD_reg`, R404. -/
  | tAddReg (rn rs rd : LoReg)
  /-- `T_SUB_reg`, R405. -/
  | tSubReg (rn rs rd : LoReg)
  /-- `T_ADD_imm3`, R406. -/
  | tAddImm3 (imm : BitVec 3) (rs rd : LoReg)
  /-- `T_SUB_imm3`, R407. -/
  | tSubImm3 (imm : BitVec 3) (rs rd : LoReg)
  -- Thumb format 3
  /-- `T_MOV_imm`, R408. -/
  | tMovImm (rd : LoReg) (imm : BitVec 8)
  /-- `T_CMP_imm`, R409. -/
  | tCmpImm (rd : LoReg) (imm : BitVec 8)
  /-- `T_ADD_imm8`, R410. -/
  | tAddImm8 (rd : LoReg) (imm : BitVec 8)
  /-- `T_SUB_imm8`, R411. -/
  | tSubImm8 (rd : LoReg) (imm : BitVec 8)
  -- Thumb format 4
  /-- `T_AND`, R412. -/
  | tAnd (rs rd : LoReg)
  /-- `T_EOR`, R413. -/
  | tEor (rs rd : LoReg)
  /-- `T_LSL_reg`, R414. -/
  | tLslReg (rs rd : LoReg)
  /-- `T_LSR_reg`, R415. -/
  | tLsrReg (rs rd : LoReg)
  /-- `T_ASR_reg`, R416. -/
  | tAsrReg (rs rd : LoReg)
  /-- `T_ADC`, R417. -/
  | tAdc (rs rd : LoReg)
  /-- `T_SBC`, R418. -/
  | tSbc (rs rd : LoReg)
  /-- `T_ROR`, R419. -/
  | tRor (rs rd : LoReg)
  /-- `T_TST`, R420. -/
  | tTst (rs rd : LoReg)
  /-- `T_NEG`, R421. -/
  | tNeg (rs rd : LoReg)
  /-- `T_CMP_reg`, R422. -/
  | tCmpReg (rs rd : LoReg)
  /-- `T_CMN`, R423. -/
  | tCmn (rs rd : LoReg)
  /-- `T_ORR`, R424. -/
  | tOrr (rs rd : LoReg)
  /-- `T_MUL`, R425. -/
  | tMul (rs rd : LoReg)
  /-- `T_BIC`, R426. -/
  | tBic (rs rd : LoReg)
  /-- `T_MVN`, R427. -/
  | tMvn (rs rd : LoReg)
  -- Thumb format 5
  /-- `T_ADD_hi`, R428. -/
  | tAddHi (h1 h2 : Bool) (rs rd : LoReg)
  /-- `T_CMP_hi`, R429. -/
  | tCmpHi (h1 h2 : Bool) (rs rd : LoReg)
  /-- `T_MOV_hi`, R430. -/
  | tMovHi (h1 h2 : Bool) (rs rd : LoReg)
  /-- `T_BX`, R431. -/
  | tBx (h1 h2 : Bool) (rs rd : LoReg)
  -- Thumb format 6
  /-- `T_LDR_pc`, R452. -/
  | tLdrPc (rd : LoReg) (imm : BitVec 8)
  -- Thumb format 7
  /-- `T_STR_reg`, R453. -/
  | tStrReg (ro rb rd : LoReg)
  /-- `T_STRB_reg`, R454. -/
  | tStrbReg (ro rb rd : LoReg)
  /-- `T_LDR_reg`, R455. -/
  | tLdrReg (ro rb rd : LoReg)
  /-- `T_LDRB_reg`, R456. -/
  | tLdrbReg (ro rb rd : LoReg)
  -- Thumb format 8
  /-- `T_STRH_reg`, R457. -/
  | tStrhReg (ro rb rd : LoReg)
  /-- `T_LDSB`, R458. -/
  | tLdsb (ro rb rd : LoReg)
  /-- `T_LDRH_reg`, R459. -/
  | tLdrhReg (ro rb rd : LoReg)
  /-- `T_LDSH`, R460. -/
  | tLdsh (ro rb rd : LoReg)
  -- Thumb format 9
  /-- `T_STR_imm`, R461. -/
  | tStrImm (imm : BitVec 5) (rb rd : LoReg)
  /-- `T_LDR_imm`, R462. -/
  | tLdrImm (imm : BitVec 5) (rb rd : LoReg)
  /-- `T_STRB_imm`, R463. -/
  | tStrbImm (imm : BitVec 5) (rb rd : LoReg)
  /-- `T_LDRB_imm`, R464. -/
  | tLdrbImm (imm : BitVec 5) (rb rd : LoReg)
  -- Thumb format 10
  /-- `T_STRH_imm`, R465. -/
  | tStrhImm (imm : BitVec 5) (rb rd : LoReg)
  /-- `T_LDRH_imm`, R466. -/
  | tLdrhImm (imm : BitVec 5) (rb rd : LoReg)
  -- Thumb format 11
  /-- `T_STR_sp`, R467. -/
  | tStrSp (rd : LoReg) (imm : BitVec 8)
  /-- `T_LDR_sp`, R468. -/
  | tLdrSp (rd : LoReg) (imm : BitVec 8)
  -- Thumb format 12
  /-- `T_ADD_pc`, R469. -/
  | tAddPc (rd : LoReg) (imm : BitVec 8)
  /-- `T_ADD_sp`, R470. -/
  | tAddSp (rd : LoReg) (imm : BitVec 8)
  -- Thumb format 13
  /-- `T_ADD_sp_imm`, R471. -/
  | tAddSpImm (imm : BitVec 7)
  /-- `T_SUB_sp_imm`, R472. -/
  | tSubSpImm (imm : BitVec 7)
  -- Thumb format 14
  /-- `T_PUSH`, R473. -/
  | tPush (lr : Bool) (list : BitVec 8)
  /-- `T_POP`, R474. -/
  | tPop (pc : Bool) (list : BitVec 8)
  -- Thumb format 15
  /-- `T_STMIA`, R475. -/
  | tStmia (rb : LoReg) (list : BitVec 8)
  /-- `T_LDMIA`, R476. -/
  | tLdmia (rb : LoReg) (list : BitVec 8)
  -- Thumb format 16
  /-- `T_Bcond`, R478. -/
  | tBcond (cond : Cond) (imm : BitVec 8)
  -- Thumb format 17
  /-- `T_SWI`, R479. -/
  | tSwi (comment : BitVec 8)
  -- Thumb format 18
  /-- `T_B`, R480. -/
  | tB (imm : BitVec 11)
  -- Thumb format 19
  /-- `T_BL_hi`, R486. -/
  | tBlHi (imm : BitVec 11)
  /-- `T_BL_lo`, R487. -/
  | tBlLo (imm : BitVec 11)
  deriving DecidableEq, Repr

/-- The instruction set an instruction belongs to. -/
def Instr.isa : Instr → Isa
  | .andImm _ _ _ _ _ _ => .arm
  | .andShimm _ _ _ _ _ _ _ => .arm
  | .andShreg _ _ _ _ _ _ _ => .arm
  | .eorImm _ _ _ _ _ _ => .arm
  | .eorShimm _ _ _ _ _ _ _ => .arm
  | .eorShreg _ _ _ _ _ _ _ => .arm
  | .subImm _ _ _ _ _ _ => .arm
  | .subShimm _ _ _ _ _ _ _ => .arm
  | .subShreg _ _ _ _ _ _ _ => .arm
  | .rsbImm _ _ _ _ _ _ => .arm
  | .rsbShimm _ _ _ _ _ _ _ => .arm
  | .rsbShreg _ _ _ _ _ _ _ => .arm
  | .addImm _ _ _ _ _ _ => .arm
  | .addShimm _ _ _ _ _ _ _ => .arm
  | .addShreg _ _ _ _ _ _ _ => .arm
  | .adcImm _ _ _ _ _ _ => .arm
  | .adcShimm _ _ _ _ _ _ _ => .arm
  | .adcShreg _ _ _ _ _ _ _ => .arm
  | .sbcImm _ _ _ _ _ _ => .arm
  | .sbcShimm _ _ _ _ _ _ _ => .arm
  | .sbcShreg _ _ _ _ _ _ _ => .arm
  | .rscImm _ _ _ _ _ _ => .arm
  | .rscShimm _ _ _ _ _ _ _ => .arm
  | .rscShreg _ _ _ _ _ _ _ => .arm
  | .tstImm _ _ _ _ _ => .arm
  | .tstShimm _ _ _ _ _ _ => .arm
  | .tstShreg _ _ _ _ _ _ => .arm
  | .teqImm _ _ _ _ _ => .arm
  | .teqShimm _ _ _ _ _ _ => .arm
  | .teqShreg _ _ _ _ _ _ => .arm
  | .cmpImm _ _ _ _ _ => .arm
  | .cmpShimm _ _ _ _ _ _ => .arm
  | .cmpShreg _ _ _ _ _ _ => .arm
  | .cmnImm _ _ _ _ _ => .arm
  | .cmnShimm _ _ _ _ _ _ => .arm
  | .cmnShreg _ _ _ _ _ _ => .arm
  | .orrImm _ _ _ _ _ _ => .arm
  | .orrShimm _ _ _ _ _ _ _ => .arm
  | .orrShreg _ _ _ _ _ _ _ => .arm
  | .movImm _ _ _ _ _ _ => .arm
  | .movShimm _ _ _ _ _ _ _ => .arm
  | .movShreg _ _ _ _ _ _ _ => .arm
  | .bicImm _ _ _ _ _ _ => .arm
  | .bicShimm _ _ _ _ _ _ _ => .arm
  | .bicShreg _ _ _ _ _ _ _ => .arm
  | .mvnImm _ _ _ _ _ _ => .arm
  | .mvnShimm _ _ _ _ _ _ _ => .arm
  | .mvnShreg _ _ _ _ _ _ _ => .arm
  | .mrs _ _ _ => .arm
  | .msrReg _ _ _ _ => .arm
  | .msrImm _ _ _ _ _ => .arm
  | .mul _ _ _ _ _ => .arm
  | .mla _ _ _ _ _ _ => .arm
  | .umull _ _ _ _ _ _ => .arm
  | .umlal _ _ _ _ _ _ => .arm
  | .smull _ _ _ _ _ _ => .arm
  | .smlal _ _ _ _ _ _ => .arm
  | .swp _ _ _ _ => .arm
  | .swpb _ _ _ _ => .arm
  | .bx _ _ => .arm
  | .strImm _ _ _ _ _ _ _ => .arm
  | .strReg _ _ _ _ _ _ _ _ _ => .arm
  | .strtImm _ _ _ _ _ => .arm
  | .strtReg _ _ _ _ _ _ _ => .arm
  | .ldrImm _ _ _ _ _ _ _ => .arm
  | .ldrReg _ _ _ _ _ _ _ _ _ => .arm
  | .ldrtImm _ _ _ _ _ => .arm
  | .ldrtReg _ _ _ _ _ _ _ => .arm
  | .strbImm _ _ _ _ _ _ _ => .arm
  | .strbReg _ _ _ _ _ _ _ _ _ => .arm
  | .strbtImm _ _ _ _ _ => .arm
  | .strbtReg _ _ _ _ _ _ _ => .arm
  | .ldrbImm _ _ _ _ _ _ _ => .arm
  | .ldrbReg _ _ _ _ _ _ _ _ _ => .arm
  | .ldrbtImm _ _ _ _ _ => .arm
  | .ldrbtReg _ _ _ _ _ _ _ => .arm
  | .strhImm _ _ _ _ _ _ _ => .arm
  | .strhReg _ _ _ _ _ _ _ => .arm
  | .ldrhImm _ _ _ _ _ _ _ => .arm
  | .ldrhReg _ _ _ _ _ _ _ => .arm
  | .ldrsbImm _ _ _ _ _ _ _ => .arm
  | .ldrsbReg _ _ _ _ _ _ _ => .arm
  | .ldrshImm _ _ _ _ _ _ _ => .arm
  | .ldrshReg _ _ _ _ _ _ _ => .arm
  | .ldmia _ _ _ _ _ => .arm
  | .stmia _ _ _ _ _ => .arm
  | .ldmib _ _ _ _ _ => .arm
  | .stmib _ _ _ _ _ => .arm
  | .ldmda _ _ _ _ _ => .arm
  | .stmda _ _ _ _ _ => .arm
  | .ldmdb _ _ _ _ _ => .arm
  | .stmdb _ _ _ _ _ => .arm
  | .b _ _ => .arm
  | .bl _ _ => .arm
  | .swi _ _ => .arm
  | .tLslImm _ _ _ => .thumb
  | .tLsrImm _ _ _ => .thumb
  | .tAsrImm _ _ _ => .thumb
  | .tAddReg _ _ _ => .thumb
  | .tSubReg _ _ _ => .thumb
  | .tAddImm3 _ _ _ => .thumb
  | .tSubImm3 _ _ _ => .thumb
  | .tMovImm _ _ => .thumb
  | .tCmpImm _ _ => .thumb
  | .tAddImm8 _ _ => .thumb
  | .tSubImm8 _ _ => .thumb
  | .tAnd _ _ => .thumb
  | .tEor _ _ => .thumb
  | .tLslReg _ _ => .thumb
  | .tLsrReg _ _ => .thumb
  | .tAsrReg _ _ => .thumb
  | .tAdc _ _ => .thumb
  | .tSbc _ _ => .thumb
  | .tRor _ _ => .thumb
  | .tTst _ _ => .thumb
  | .tNeg _ _ => .thumb
  | .tCmpReg _ _ => .thumb
  | .tCmn _ _ => .thumb
  | .tOrr _ _ => .thumb
  | .tMul _ _ => .thumb
  | .tBic _ _ => .thumb
  | .tMvn _ _ => .thumb
  | .tAddHi _ _ _ _ => .thumb
  | .tCmpHi _ _ _ _ => .thumb
  | .tMovHi _ _ _ _ => .thumb
  | .tBx _ _ _ _ => .thumb
  | .tLdrPc _ _ => .thumb
  | .tStrReg _ _ _ => .thumb
  | .tStrbReg _ _ _ => .thumb
  | .tLdrReg _ _ _ => .thumb
  | .tLdrbReg _ _ _ => .thumb
  | .tStrhReg _ _ _ => .thumb
  | .tLdsb _ _ _ => .thumb
  | .tLdrhReg _ _ _ => .thumb
  | .tLdsh _ _ _ => .thumb
  | .tStrImm _ _ _ => .thumb
  | .tLdrImm _ _ _ => .thumb
  | .tStrbImm _ _ _ => .thumb
  | .tLdrbImm _ _ _ => .thumb
  | .tStrhImm _ _ _ => .thumb
  | .tLdrhImm _ _ _ => .thumb
  | .tStrSp _ _ => .thumb
  | .tLdrSp _ _ => .thumb
  | .tAddPc _ _ => .thumb
  | .tAddSp _ _ => .thumb
  | .tAddSpImm _ => .thumb
  | .tSubSpImm _ => .thumb
  | .tPush _ _ => .thumb
  | .tPop _ _ => .thumb
  | .tStmia _ _ => .thumb
  | .tLdmia _ _ => .thumb
  | .tBcond _ _ => .thumb
  | .tSwi _ => .thumb
  | .tB _ => .thumb
  | .tBlHi _ => .thumb
  | .tBlLo _ => .thumb

end Sys2Proof
end

