-- ==== Sys2Proof/WellFormed.lean ====
section
/-! DEFINITION. Which instruction terms stand for an encoding: the exclusions of spec/opcode_table.json. -/

namespace Sys2Proof

/-- An instruction is well formed when its row's `excludes` does not exclude it: a single data transfer with P = 0 and
W = 1 is the T form (R326 to R329), a halfword transfer with P = 0 and W = 1 is undefined (R170 (d)), and a Thumb conditional
branch has no condition `1110` or `1111` (R190, R478). -/
def Instr.wf : Instr → Bool
  | .andImm _ _ _ _ _ _ => true
  | .andShimm _ _ _ _ _ _ _ => true
  | .andShreg _ _ _ _ _ _ _ => true
  | .eorImm _ _ _ _ _ _ => true
  | .eorShimm _ _ _ _ _ _ _ => true
  | .eorShreg _ _ _ _ _ _ _ => true
  | .subImm _ _ _ _ _ _ => true
  | .subShimm _ _ _ _ _ _ _ => true
  | .subShreg _ _ _ _ _ _ _ => true
  | .rsbImm _ _ _ _ _ _ => true
  | .rsbShimm _ _ _ _ _ _ _ => true
  | .rsbShreg _ _ _ _ _ _ _ => true
  | .addImm _ _ _ _ _ _ => true
  | .addShimm _ _ _ _ _ _ _ => true
  | .addShreg _ _ _ _ _ _ _ => true
  | .adcImm _ _ _ _ _ _ => true
  | .adcShimm _ _ _ _ _ _ _ => true
  | .adcShreg _ _ _ _ _ _ _ => true
  | .sbcImm _ _ _ _ _ _ => true
  | .sbcShimm _ _ _ _ _ _ _ => true
  | .sbcShreg _ _ _ _ _ _ _ => true
  | .rscImm _ _ _ _ _ _ => true
  | .rscShimm _ _ _ _ _ _ _ => true
  | .rscShreg _ _ _ _ _ _ _ => true
  | .tstImm _ _ _ _ _ => true
  | .tstShimm _ _ _ _ _ _ => true
  | .tstShreg _ _ _ _ _ _ => true
  | .teqImm _ _ _ _ _ => true
  | .teqShimm _ _ _ _ _ _ => true
  | .teqShreg _ _ _ _ _ _ => true
  | .cmpImm _ _ _ _ _ => true
  | .cmpShimm _ _ _ _ _ _ => true
  | .cmpShreg _ _ _ _ _ _ => true
  | .cmnImm _ _ _ _ _ => true
  | .cmnShimm _ _ _ _ _ _ => true
  | .cmnShreg _ _ _ _ _ _ => true
  | .orrImm _ _ _ _ _ _ => true
  | .orrShimm _ _ _ _ _ _ _ => true
  | .orrShreg _ _ _ _ _ _ _ => true
  | .movImm _ _ _ _ _ _ => true
  | .movShimm _ _ _ _ _ _ _ => true
  | .movShreg _ _ _ _ _ _ _ => true
  | .bicImm _ _ _ _ _ _ => true
  | .bicShimm _ _ _ _ _ _ _ => true
  | .bicShreg _ _ _ _ _ _ _ => true
  | .mvnImm _ _ _ _ _ _ => true
  | .mvnShimm _ _ _ _ _ _ _ => true
  | .mvnShreg _ _ _ _ _ _ _ => true
  | .mrs _ _ _ => true
  | .msrReg _ _ _ _ => true
  | .msrImm _ _ _ _ _ => true
  | .mul _ _ _ _ _ => true
  | .mla _ _ _ _ _ _ => true
  | .umull _ _ _ _ _ _ => true
  | .umlal _ _ _ _ _ _ => true
  | .smull _ _ _ _ _ _ => true
  | .smlal _ _ _ _ _ _ => true
  | .swp _ _ _ _ => true
  | .swpb _ _ _ _ => true
  | .bx _ _ => true
  | .strImm _ p _ w _ _ _ => p || !w
  | .strReg _ p _ w _ _ _ _ _ => p || !w
  | .strtImm _ _ _ _ _ => true
  | .strtReg _ _ _ _ _ _ _ => true
  | .ldrImm _ p _ w _ _ _ => p || !w
  | .ldrReg _ p _ w _ _ _ _ _ => p || !w
  | .ldrtImm _ _ _ _ _ => true
  | .ldrtReg _ _ _ _ _ _ _ => true
  | .strbImm _ p _ w _ _ _ => p || !w
  | .strbReg _ p _ w _ _ _ _ _ => p || !w
  | .strbtImm _ _ _ _ _ => true
  | .strbtReg _ _ _ _ _ _ _ => true
  | .ldrbImm _ p _ w _ _ _ => p || !w
  | .ldrbReg _ p _ w _ _ _ _ _ => p || !w
  | .ldrbtImm _ _ _ _ _ => true
  | .ldrbtReg _ _ _ _ _ _ _ => true
  | .strhImm _ p _ w _ _ _ => p || !w
  | .strhReg _ p _ w _ _ _ => p || !w
  | .ldrhImm _ p _ w _ _ _ => p || !w
  | .ldrhReg _ p _ w _ _ _ => p || !w
  | .ldrsbImm _ p _ w _ _ _ => p || !w
  | .ldrsbReg _ p _ w _ _ _ => p || !w
  | .ldrshImm _ p _ w _ _ _ => p || !w
  | .ldrshReg _ p _ w _ _ _ => p || !w
  | .ldmia _ _ _ _ _ => true
  | .stmia _ _ _ _ _ => true
  | .ldmib _ _ _ _ _ => true
  | .stmib _ _ _ _ _ => true
  | .ldmda _ _ _ _ _ => true
  | .stmda _ _ _ _ _ => true
  | .ldmdb _ _ _ _ _ => true
  | .stmdb _ _ _ _ _ => true
  | .b _ _ => true
  | .bl _ _ => true
  | .swi _ _ => true
  | .tLslImm _ _ _ => true
  | .tLsrImm _ _ _ => true
  | .tAsrImm _ _ _ => true
  | .tAddReg _ _ _ => true
  | .tSubReg _ _ _ => true
  | .tAddImm3 _ _ _ => true
  | .tSubImm3 _ _ _ => true
  | .tMovImm _ _ => true
  | .tCmpImm _ _ => true
  | .tAddImm8 _ _ => true
  | .tSubImm8 _ _ => true
  | .tAnd _ _ => true
  | .tEor _ _ => true
  | .tLslReg _ _ => true
  | .tLsrReg _ _ => true
  | .tAsrReg _ _ => true
  | .tAdc _ _ => true
  | .tSbc _ _ => true
  | .tRor _ _ => true
  | .tTst _ _ => true
  | .tNeg _ _ => true
  | .tCmpReg _ _ => true
  | .tCmn _ _ => true
  | .tOrr _ _ => true
  | .tMul _ _ => true
  | .tBic _ _ => true
  | .tMvn _ _ => true
  | .tAddHi _ _ _ _ => true
  | .tCmpHi _ _ _ _ => true
  | .tMovHi _ _ _ _ => true
  | .tBx _ _ _ _ => true
  | .tLdrPc _ _ => true
  | .tStrReg _ _ _ => true
  | .tStrbReg _ _ _ => true
  | .tLdrReg _ _ _ => true
  | .tLdrbReg _ _ _ => true
  | .tStrhReg _ _ _ => true
  | .tLdsb _ _ _ => true
  | .tLdrhReg _ _ _ => true
  | .tLdsh _ _ _ => true
  | .tStrImm _ _ _ => true
  | .tLdrImm _ _ _ => true
  | .tStrbImm _ _ _ => true
  | .tLdrbImm _ _ _ => true
  | .tStrhImm _ _ _ => true
  | .tLdrhImm _ _ _ => true
  | .tStrSp _ _ => true
  | .tLdrSp _ _ => true
  | .tAddPc _ _ => true
  | .tAddSp _ _ => true
  | .tAddSpImm _ => true
  | .tSubSpImm _ => true
  | .tPush _ _ => true
  | .tPop _ _ => true
  | .tStmia _ _ => true
  | .tLdmia _ _ => true
  | .tBcond cond _ => cond != .al && cond != .nv
  | .tSwi _ => true
  | .tB _ => true
  | .tBlHi _ => true
  | .tBlLo _ => true

end Sys2Proof
end

