-- ==== Sys2Proof/Decode.lean ====
section
/-! DEFINITION. The decoder, total on every word, halfword and byte list, rejecting by name (30_encoding.md R150 to R192), and
after it the encoder, written from the encoding patterns of spec/opcode_table.json. -/

namespace Sys2Proof

/-! ## Fields -/

/-- The condition a 4-bit field names (R220). -/
def Cond.ofBits (b : BitVec 4) : Cond :=
  match b.toNat with
  | 0 => .eq | 1 => .ne | 2 => .cs | 3 => .cc | 4 => .mi | 5 => .pl | 6 => .vs | 7 => .vc
  | 8 => .hi | 9 => .ls | 10 => .ge | 11 => .lt | 12 => .gt | 13 => .le | 14 => .al | _ => .nv

/-- The 4-bit field of a condition (R220). -/
def Cond.bits : Cond → BitVec 4
  | .eq => 0b0000#4 | .ne => 0b0001#4 | .cs => 0b0010#4 | .cc => 0b0011#4
  | .mi => 0b0100#4 | .pl => 0b0101#4 | .vs => 0b0110#4 | .vc => 0b0111#4
  | .hi => 0b1000#4 | .ls => 0b1001#4 | .ge => 0b1010#4 | .lt => 0b1011#4
  | .gt => 0b1100#4 | .le => 0b1101#4 | .al => 0b1110#4 | .nv => 0b1111#4

/-- The shift type a 2-bit field names (R152). -/
def ShiftType.ofBits (b : BitVec 2) : ShiftType :=
  match b.toNat with
  | 0 => .lsl | 1 => .lsr | 2 => .asr | _ => .ror

/-- The 2-bit field of a shift type (R152). -/
def ShiftType.bits : ShiftType → BitVec 2
  | .lsl => 0b00#2 | .lsr => 0b01#2 | .asr => 0b10#2 | .ror => 0b11#2

/-- The operation a 4-bit opcode field names (R260). -/
def AluOp.ofBits (b : BitVec 4) : AluOp :=
  match b.toNat with
  | 0 => .and | 1 => .eor | 2 => .sub | 3 => .rsb | 4 => .add | 5 => .adc | 6 => .sbc | 7 => .rsc
  | 8 => .tst | 9 => .teq | 10 => .cmp | 11 => .cmn | 12 => .orr | 13 => .mov | 14 => .bic | _ => .mvn

/-- The MSR field mask of bits 19 to 16: `f` is bit 19, `s` 18, `x` 17, `c` 16 (R153). -/
def PsrMask.ofBits (b : BitVec 4) : PsrMask :=
  { f := b.getLsbD 3, s := b.getLsbD 2, x := b.getLsbD 1, c := b.getLsbD 0 }

/-- One bit as a field. -/
abbrev bit (b : Bool) : BitVec 1 := BitVec.ofBool b

/-- The 4-bit field of an MSR field mask (R153). -/
def PsrMask.bits (m : PsrMask) : BitVec 4 := bit m.f ++ bit m.s ++ bit m.x ++ bit m.c

/-- A 4-bit register field (R151). -/
def reg4 (r : Reg) : BitVec 4 := BitVec.ofFin (w := 4) r

/-- A 3-bit register field (R180). -/
def lo3 (r : LoReg) : BitVec 3 := BitVec.ofFin (w := 3) r

/-- The register a 4-bit field names. -/
def regOf (b : BitVec 4) : Reg := b.toFin

/-- The register a 3-bit Thumb field names. -/
def loOf (b : BitVec 3) : LoReg := b.toFin

/-- The register field of an ARM word whose lowest bit is `lo`. -/
def Code.regAt (w : Word) (lo : Nat) : Reg := regOf (w.extractLsb' lo 4)

/-- The register field of a Thumb halfword whose lowest bit is `lo`. -/
def Code.loAt (h : Half) (lo : Nat) : LoReg := loOf (h.extractLsb' lo 3)

/-! ## The outcome of decoding -/

/-- Decoding yields one instruction or names the undefined encoding by what a `DecodeError` carries: the raw word, the
computed index and the instruction set (R13, R161, R162, R191). -/
inductive DecodeResult where
  | instr (i : Instr)
  | undefined (raw : Word) (index : BitVec 12) (isa : Isa)
  deriving DecidableEq, Repr

/-! ## ARM -/

/-- The formats an entry of the ARM decode table can name (R159, R160). -/
inductive ArmFormat where
  | dataProcessing | mrs | msrRegister | msrImmediate | multiply | multiplyLong | singleDataSwap | branchExchange
  | halfwordTransfer | singleDataTransfer | blockDataTransfer | branch | softwareInterrupt | undefined
  deriving DecidableEq, Repr

/-- The 12-bit table index `raw[27:20] : raw[7:4]` (R159). -/
def armIndex (w : Word) : BitVec 12 := w.extractLsb' 20 8 ++ w.extractLsb' 4 4

/-- The table entries with `hi[7:5] = 000`: multiplies and swaps, halfword transfers, the control space, and register-operand
data processing (R160). -/
def armFormat000 (hi : BitVec 8) (lo : BitVec 4) : ArmFormat :=
  if lo = 0b1001#4 then
    if hi.extractLsb' 2 3 = 0b000#3 then .multiply
    else if hi.extractLsb' 3 2 = 0b01#2 then .multiplyLong
    else if hi.extractLsb' 3 2 = 0b10#2 ∧ hi.extractLsb' 0 2 = 0b00#2 then .singleDataSwap
    else .undefined
  else if lo.getLsbD 3 ∧ lo.getLsbD 0 then
    if hi.getLsbD 0 = false ∧ lo.extractLsb' 1 2 ≠ 0b01#2 then .undefined
    else if hi.getLsbD 4 = false ∧ hi.getLsbD 1 then .undefined
    else .halfwordTransfer
  else if hi.extractLsb' 3 2 = 0b10#2 ∧ hi.getLsbD 0 = false then
    if hi = 0b00010010#8 ∧ lo = 0b0001#4 then .branchExchange
    else if lo = 0b0000#4 ∧ hi.getLsbD 1 = false then .mrs
    else if lo = 0b0000#4 then .msrRegister
    else .undefined
  else .dataProcessing

/-- The table entry at `(hi, lo)`, in the order R160 evaluates it. -/
def armFormat (hi : BitVec 8) (lo : BitVec 4) : ArmFormat :=
  match (hi.extractLsb' 5 3).toNat with
  | 0 => armFormat000 hi lo
  | 1 =>
    if hi.extractLsb' 3 2 = 0b10#2 ∧ hi.getLsbD 0 = false then
      if hi.getLsbD 1 then .msrImmediate else .undefined
    else .dataProcessing
  | 2 => .singleDataTransfer
  | 3 => if lo.getLsbD 0 then .undefined else .singleDataTransfer
  | 4 => .blockDataTransfer
  | 5 => .branch
  | 6 => .undefined
  | _ => if hi.getLsbD 4 then .softwareInterrupt else .undefined

/-- The DataProcessing instruction of an opcode with an immediate operand2 (R152, R260). TST, TEQ, CMP and CMN carry no S (R267). -/
def dpImm (op : AluOp) (cond : Cond) (sf : Bool) (rn rd : Reg) (rotate : BitVec 4) (imm : BitVec 8) : Instr :=
  match op with
  | .and => .andImm cond sf rn rd rotate imm
  | .eor => .eorImm cond sf rn rd rotate imm
  | .sub => .subImm cond sf rn rd rotate imm
  | .rsb => .rsbImm cond sf rn rd rotate imm
  | .add => .addImm cond sf rn rd rotate imm
  | .adc => .adcImm cond sf rn rd rotate imm
  | .sbc => .sbcImm cond sf rn rd rotate imm
  | .rsc => .rscImm cond sf rn rd rotate imm
  | .tst => .tstImm cond rn rd rotate imm
  | .teq => .teqImm cond rn rd rotate imm
  | .cmp => .cmpImm cond rn rd rotate imm
  | .cmn => .cmnImm cond rn rd rotate imm
  | .orr => .orrImm cond sf rn rd rotate imm
  | .mov => .movImm cond sf rn rd rotate imm
  | .bic => .bicImm cond sf rn rd rotate imm
  | .mvn => .mvnImm cond sf rn rd rotate imm

/-- The DataProcessing instruction of an opcode with an immediate shift (R152, R260). TST, TEQ, CMP and CMN carry no S (R267). -/
def dpShimm (op : AluOp) (cond : Cond) (sf : Bool) (rn rd : Reg) (amount : BitVec 5) (ty : ShiftType) (rm : Reg) : Instr :=
  match op with
  | .and => .andShimm cond sf rn rd amount ty rm
  | .eor => .eorShimm cond sf rn rd amount ty rm
  | .sub => .subShimm cond sf rn rd amount ty rm
  | .rsb => .rsbShimm cond sf rn rd amount ty rm
  | .add => .addShimm cond sf rn rd amount ty rm
  | .adc => .adcShimm cond sf rn rd amount ty rm
  | .sbc => .sbcShimm cond sf rn rd amount ty rm
  | .rsc => .rscShimm cond sf rn rd amount ty rm
  | .tst => .tstShimm cond rn rd amount ty rm
  | .teq => .teqShimm cond rn rd amount ty rm
  | .cmp => .cmpShimm cond rn rd amount ty rm
  | .cmn => .cmnShimm cond rn rd amount ty rm
  | .orr => .orrShimm cond sf rn rd amount ty rm
  | .mov => .movShimm cond sf rn rd amount ty rm
  | .bic => .bicShimm cond sf rn rd amount ty rm
  | .mvn => .mvnShimm cond sf rn rd amount ty rm

/-- The DataProcessing instruction of an opcode with a register shift (R152, R260). TST, TEQ, CMP and CMN carry no S (R267). -/
def dpShreg (op : AluOp) (cond : Cond) (sf : Bool) (rn rd : Reg) (rs : Reg) (ty : ShiftType) (rm : Reg) : Instr :=
  match op with
  | .and => .andShreg cond sf rn rd rs ty rm
  | .eor => .eorShreg cond sf rn rd rs ty rm
  | .sub => .subShreg cond sf rn rd rs ty rm
  | .rsb => .rsbShreg cond sf rn rd rs ty rm
  | .add => .addShreg cond sf rn rd rs ty rm
  | .adc => .adcShreg cond sf rn rd rs ty rm
  | .sbc => .sbcShreg cond sf rn rd rs ty rm
  | .rsc => .rscShreg cond sf rn rd rs ty rm
  | .tst => .tstShreg cond rn rd rs ty rm
  | .teq => .teqShreg cond rn rd rs ty rm
  | .cmp => .cmpShreg cond rn rd rs ty rm
  | .cmn => .cmnShreg cond rn rd rs ty rm
  | .orr => .orrShreg cond sf rn rd rs ty rm
  | .mov => .movShreg cond sf rn rd rs ty rm
  | .bic => .bicShreg cond sf rn rd rs ty rm
  | .mvn => .mvnShreg cond sf rn rd rs ty rm

/-- A DataProcessing word: bit 25 selects the immediate form, bit 4 the register shift (R152). -/
def parseDataProcessing (w : Word) : Instr :=
  let op := AluOp.ofBits (w.extractLsb' 21 4)
  let cond := Cond.ofBits (w.extractLsb' 28 4)
  let sf := w.getLsbD 20
  let rn := Code.regAt w 16
  let rd := Code.regAt w 12
  let ty := ShiftType.ofBits (w.extractLsb' 5 2)
  let rm := Code.regAt w 0
  if w.getLsbD 25 then dpImm op cond sf rn rd (w.extractLsb' 8 4) (w.extractLsb' 0 8)
  else if w.getLsbD 4 then dpShreg op cond sf rn rd (Code.regAt w 8) ty rm
  else dpShimm op cond sf rn rd (w.extractLsb' 7 5) ty rm

/-- A Multiply word: bit 21 is A (R154). -/
def parseMultiply (w : Word) : Instr :=
  let cond := Cond.ofBits (w.extractLsb' 28 4)
  let sf := w.getLsbD 20
  if w.getLsbD 21 then .mla cond sf (Code.regAt w 16) (Code.regAt w 12) (Code.regAt w 8) (Code.regAt w 0)
  else .mul cond sf (Code.regAt w 16) (Code.regAt w 8) (Code.regAt w 0)

/-- A MultiplyLong word: bit 22 is U (1 = signed), bit 21 is A (R154). -/
def parseMultiplyLong (w : Word) : Instr :=
  let cond := Cond.ofBits (w.extractLsb' 28 4)
  let sf := w.getLsbD 20
  let rdHi := Code.regAt w 16
  let rdLo := Code.regAt w 12
  let rs := Code.regAt w 8
  let rm := Code.regAt w 0
  match w.getLsbD 22, w.getLsbD 21 with
  | false, false => .umull cond sf rdHi rdLo rs rm
  | false, true => .umlal cond sf rdHi rdLo rs rm
  | true, false => .smull cond sf rdHi rdLo rs rm
  | true, true => .smlal cond sf rdHi rdLo rs rm

/-- A SingleDataSwap word: bit 22 is B (R155). -/
def parseSwap (w : Word) : Instr :=
  let cond := Cond.ofBits (w.extractLsb' 28 4)
  if w.getLsbD 22 then .swpb cond (Code.regAt w 16) (Code.regAt w 12) (Code.regAt w 0)
  else .swp cond (Code.regAt w 16) (Code.regAt w 12) (Code.regAt w 0)

/-- A HalfwordTransfer word: L is bit 20, SH bits 6 and 5, bit 22 the immediate form (R156). A store has SH = 01 (R160). -/
def parseHalfword (w : Word) : Instr :=
  let cond := Cond.ofBits (w.extractLsb' 28 4)
  let p := w.getLsbD 24
  let u := w.getLsbD 23
  let wb := w.getLsbD 21
  let rn := Code.regAt w 16
  let rd := Code.regAt w 12
  let imm := w.extractLsb' 8 4 ++ w.extractLsb' 0 4
  let rm := Code.regAt w 0
  match w.getLsbD 20, w.getLsbD 6, w.getLsbD 5, w.getLsbD 22 with
  | false, _, _, true => .strhImm cond p u wb rn rd imm
  | false, _, _, false => .strhReg cond p u wb rn rd rm
  | true, false, _, true => .ldrhImm cond p u wb rn rd imm
  | true, false, _, false => .ldrhReg cond p u wb rn rd rm
  | true, true, false, true => .ldrsbImm cond p u wb rn rd imm
  | true, true, false, false => .ldrsbReg cond p u wb rn rd rm
  | true, true, true, true => .ldrshImm cond p u wb rn rd imm
  | true, true, true, false => .ldrshReg cond p u wb rn rd rm

/-- A SingleDataTransfer word (R157): bit 25 selects the register offset; P = 0 with W = 1 is the T form (R326). -/
def parseSingle (w : Word) : Instr :=
  let cond := Cond.ofBits (w.extractLsb' 28 4)
  let p := w.getLsbD 24
  let u := w.getLsbD 23
  let wb := w.getLsbD 21
  let rn := Code.regAt w 16
  let rd := Code.regAt w 12
  let imm := w.extractLsb' 0 12
  let am := w.extractLsb' 7 5
  let ty := ShiftType.ofBits (w.extractLsb' 5 2)
  let rm := Code.regAt w 0
  if p = false ∧ wb then
    match w.getLsbD 20, w.getLsbD 22, w.getLsbD 25 with
    | false, false, false => .strtImm cond u rn rd imm
    | false, false, true => .strtReg cond u rn rd am ty rm
    | false, true, false => .strbtImm cond u rn rd imm
    | false, true, true => .strbtReg cond u rn rd am ty rm
    | true, false, false => .ldrtImm cond u rn rd imm
    | true, false, true => .ldrtReg cond u rn rd am ty rm
    | true, true, false => .ldrbtImm cond u rn rd imm
    | true, true, true => .ldrbtReg cond u rn rd am ty rm
  else
    match w.getLsbD 20, w.getLsbD 22, w.getLsbD 25 with
    | false, false, false => .strImm cond p u wb rn rd imm
    | false, false, true => .strReg cond p u wb rn rd am ty rm
    | false, true, false => .strbImm cond p u wb rn rd imm
    | false, true, true => .strbReg cond p u wb rn rd am ty rm
    | true, false, false => .ldrImm cond p u wb rn rd imm
    | true, false, true => .ldrReg cond p u wb rn rd am ty rm
    | true, true, false => .ldrbImm cond p u wb rn rd imm
    | true, true, true => .ldrbReg cond p u wb rn rd am ty rm

/-- A BlockDataTransfer word: P, U and L select the row (R158, R340). -/
def parseBlock (w : Word) : Instr :=
  let cond := Cond.ofBits (w.extractLsb' 28 4)
  let ub := w.getLsbD 22
  let wb := w.getLsbD 21
  let rn := Code.regAt w 16
  let list := w.extractLsb' 0 16
  match w.getLsbD 20, w.getLsbD 24, w.getLsbD 23 with
  | true, false, true => .ldmia cond ub wb rn list
  | true, true, true => .ldmib cond ub wb rn list
  | true, false, false => .ldmda cond ub wb rn list
  | true, true, false => .ldmdb cond ub wb rn list
  | false, false, true => .stmia cond ub wb rn list
  | false, true, true => .stmib cond ub wb rn list
  | false, false, false => .stmda cond ub wb rn list
  | false, true, false => .stmdb cond ub wb rn list

/-- Decoding of an ARM word: the table entry of its index, then the format's fields (R159 to R164). -/
def decodeArm (w : Word) : DecodeResult :=
  let cond := Cond.ofBits (w.extractLsb' 28 4)
  match armFormat (w.extractLsb' 20 8) (w.extractLsb' 4 4) with
  | .dataProcessing => .instr (parseDataProcessing w)
  | .mrs => .instr (.mrs cond (w.getLsbD 22) (Code.regAt w 12))
  | .msrRegister => .instr (.msrReg cond (w.getLsbD 22) (PsrMask.ofBits (w.extractLsb' 16 4)) (Code.regAt w 0))
  | .msrImmediate =>
    .instr (.msrImm cond (w.getLsbD 22) (PsrMask.ofBits (w.extractLsb' 16 4)) (w.extractLsb' 8 4) (w.extractLsb' 0 8))
  | .multiply => .instr (parseMultiply w)
  | .multiplyLong => .instr (parseMultiplyLong w)
  | .singleDataSwap => .instr (parseSwap w)
  | .branchExchange => .instr (.bx cond (Code.regAt w 0))
  | .halfwordTransfer => .instr (parseHalfword w)
  | .singleDataTransfer => .instr (parseSingle w)
  | .blockDataTransfer => .instr (parseBlock w)
  | .branch =>
    .instr (if w.getLsbD 24 then .bl cond (w.extractLsb' 0 24) else .b cond (w.extractLsb' 0 24))
  | .softwareInterrupt => .instr (.swi cond (w.extractLsb' 0 24))
  | .undefined => .undefined w (armIndex w) .arm

/-! ## Thumb -/

/-- The Thumb formats (R180). -/
inductive ThumbFormat where
  | f1 | f2 | f3 | f4 | f5 | f6 | f7 | f8 | f9 | f10 | f11 | f12 | f13 | f14 | f15 | f16 | f17 | f18 | f19 | undefined
  deriving DecidableEq, Repr

/-- The descending prefix walk, first match wins (R190). -/
def thumbFormat (t : Half) : ThumbFormat :=
  if t.extractLsb' 11 5 = 0b00011#5 then .f2
  else if t.extractLsb' 13 3 = 0b000#3 then .f1
  else if t.extractLsb' 13 3 = 0b001#3 then .f3
  else if t.extractLsb' 10 6 = 0b010000#6 then .f4
  else if t.extractLsb' 10 6 = 0b010001#6 then .f5
  else if t.extractLsb' 11 5 = 0b01001#5 then .f6
  else if t.extractLsb' 12 4 = 0b0101#4 ∧ t.getLsbD 9 = false then .f7
  else if t.extractLsb' 12 4 = 0b0101#4 ∧ t.getLsbD 9 then .f8
  else if t.extractLsb' 13 3 = 0b011#3 then .f9
  else if t.extractLsb' 12 4 = 0b1000#4 then .f10
  else if t.extractLsb' 12 4 = 0b1001#4 then .f11
  else if t.extractLsb' 12 4 = 0b1010#4 then .f12
  else if t.extractLsb' 8 8 = 0b10110000#8 then .f13
  else if t.extractLsb' 12 4 = 0b1011#4 ∧ t.extractLsb' 9 2 = 0b10#2 then .f14
  else if t.extractLsb' 12 4 = 0b1011#4 then .undefined
  else if t.extractLsb' 12 4 = 0b1100#4 then .f15
  else if t.extractLsb' 8 8 = 0b11011111#8 then .f17
  else if t.extractLsb' 8 8 = 0b11011110#8 then .undefined
  else if t.extractLsb' 12 4 = 0b1101#4 then .f16
  else if t.extractLsb' 11 5 = 0b11100#5 then .f18
  else if t.extractLsb' 11 5 = 0b11101#5 then .undefined
  else .f19

/-- Format 1 (R401 to R403): the op field is 00, 01 or 10 here, since 11 is format 2 (R180). -/
def parseF1 (t : Half) : Instr :=
  let imm := t.extractLsb' 6 5
  let rs := Code.loAt t 3
  let rd := Code.loAt t 0
  match t.getLsbD 12, t.getLsbD 11 with
  | false, false => .tLslImm imm rs rd
  | false, true => .tLsrImm imm rs rd
  | true, _ => .tAsrImm imm rs rd

/-- Format 2 (R404 to R407): I is bit 10, op bit 9. -/
def parseF2 (t : Half) : Instr :=
  let rn := Code.loAt t 6
  let imm := t.extractLsb' 6 3
  let rs := Code.loAt t 3
  let rd := Code.loAt t 0
  match t.getLsbD 10, t.getLsbD 9 with
  | false, false => .tAddReg rn rs rd
  | false, true => .tSubReg rn rs rd
  | true, false => .tAddImm3 imm rs rd
  | true, true => .tSubImm3 imm rs rd

/-- Format 3 (R408 to R411): op is bits 12 and 11. -/
def parseF3 (t : Half) : Instr :=
  let rd := Code.loAt t 8
  let imm := t.extractLsb' 0 8
  match t.getLsbD 12, t.getLsbD 11 with
  | false, false => .tMovImm rd imm
  | false, true => .tCmpImm rd imm
  | true, false => .tAddImm8 rd imm
  | true, true => .tSubImm8 rd imm

/-- Format 4 (R412 to R427): op is bits 9 to 6. -/
def parseF4 (t : Half) : Instr :=
  let rs := Code.loAt t 3
  let rd := Code.loAt t 0
  match (t.extractLsb' 6 4).toNat with
  | 0 => .tAnd rs rd
  | 1 => .tEor rs rd
  | 2 => .tLslReg rs rd
  | 3 => .tLsrReg rs rd
  | 4 => .tAsrReg rs rd
  | 5 => .tAdc rs rd
  | 6 => .tSbc rs rd
  | 7 => .tRor rs rd
  | 8 => .tTst rs rd
  | 9 => .tNeg rs rd
  | 10 => .tCmpReg rs rd
  | 11 => .tCmn rs rd
  | 12 => .tOrr rs rd
  | 13 => .tMul rs rd
  | 14 => .tBic rs rd
  | _ => .tMvn rs rd

/-- Format 5 (R428 to R431): op is bits 9 and 8, H1 bit 7, H2 bit 6. -/
def parseF5 (t : Half) : Instr :=
  let h1 := t.getLsbD 7
  let h2 := t.getLsbD 6
  let rs := Code.loAt t 3
  let rd := Code.loAt t 0
  match t.getLsbD 9, t.getLsbD 8 with
  | false, false => .tAddHi h1 h2 rs rd
  | false, true => .tCmpHi h1 h2 rs rd
  | true, false => .tMovHi h1 h2 rs rd
  | true, true => .tBx h1 h2 rs rd

/-- Format 7 (R453 to R456): L is bit 11, B bit 10. -/
def parseF7 (t : Half) : Instr :=
  let ro := Code.loAt t 6
  let rb := Code.loAt t 3
  let rd := Code.loAt t 0
  match t.getLsbD 11, t.getLsbD 10 with
  | false, false => .tStrReg ro rb rd
  | false, true => .tStrbReg ro rb rd
  | true, false => .tLdrReg ro rb rd
  | true, true => .tLdrbReg ro rb rd

/-- Format 8 (R457 to R460): H is bit 11, S bit 10. -/
def parseF8 (t : Half) : Instr :=
  let ro := Code.loAt t 6
  let rb := Code.loAt t 3
  let rd := Code.loAt t 0
  match t.getLsbD 11, t.getLsbD 10 with
  | false, false => .tStrhReg ro rb rd
  | false, true => .tLdsb ro rb rd
  | true, false => .tLdrhReg ro rb rd
  | true, true => .tLdsh ro rb rd

/-- Format 9 (R461 to R464): B is bit 12, L bit 11. -/
def parseF9 (t : Half) : Instr :=
  let imm := t.extractLsb' 6 5
  let rb := Code.loAt t 3
  let rd := Code.loAt t 0
  match t.getLsbD 12, t.getLsbD 11 with
  | false, false => .tStrImm imm rb rd
  | false, true => .tLdrImm imm rb rd
  | true, false => .tStrbImm imm rb rd
  | true, true => .tLdrbImm imm rb rd

/-- Decoding of a Thumb halfword: the format of the prefix walk, then its fields (R180, R190 to R192). -/
def decodeThumb (t : Half) : DecodeResult :=
  match thumbFormat t with
  | .f1 => .instr (parseF1 t)
  | .f2 => .instr (parseF2 t)
  | .f3 => .instr (parseF3 t)
  | .f4 => .instr (parseF4 t)
  | .f5 => .instr (parseF5 t)
  | .f6 => .instr (.tLdrPc (Code.loAt t 8) (t.extractLsb' 0 8))
  | .f7 => .instr (parseF7 t)
  | .f8 => .instr (parseF8 t)
  | .f9 => .instr (parseF9 t)
  | .f10 =>
    .instr (if t.getLsbD 11 then .tLdrhImm (t.extractLsb' 6 5) (Code.loAt t 3) (Code.loAt t 0)
      else .tStrhImm (t.extractLsb' 6 5) (Code.loAt t 3) (Code.loAt t 0))
  | .f11 =>
    .instr (if t.getLsbD 11 then .tLdrSp (Code.loAt t 8) (t.extractLsb' 0 8)
      else .tStrSp (Code.loAt t 8) (t.extractLsb' 0 8))
  | .f12 =>
    .instr (if t.getLsbD 11 then .tAddSp (Code.loAt t 8) (t.extractLsb' 0 8)
      else .tAddPc (Code.loAt t 8) (t.extractLsb' 0 8))
  | .f13 =>
    .instr (if t.getLsbD 7 then .tSubSpImm (t.extractLsb' 0 7) else .tAddSpImm (t.extractLsb' 0 7))
  | .f14 =>
    .instr (if t.getLsbD 11 then .tPop (t.getLsbD 8) (t.extractLsb' 0 8) else .tPush (t.getLsbD 8) (t.extractLsb' 0 8))
  | .f15 =>
    .instr (if t.getLsbD 11 then .tLdmia (Code.loAt t 8) (t.extractLsb' 0 8)
      else .tStmia (Code.loAt t 8) (t.extractLsb' 0 8))
  | .f16 => .instr (.tBcond (Cond.ofBits (t.extractLsb' 8 4)) (t.extractLsb' 0 8))
  | .f17 => .instr (.tSwi (t.extractLsb' 0 8))
  | .f18 => .instr (.tB (t.extractLsb' 0 11))
  | .f19 => .instr (if t.getLsbD 11 then .tBlLo (t.extractLsb' 0 11) else .tBlHi (t.extractLsb' 0 11))
  | .undefined => .undefined (t.zeroExtend 32) ((t.extractLsb' 8 8).zeroExtend 12) .thumb

/-! ## The decoder of raw instructions and of bytes -/

/-- The decoder: one function per instruction set (R150). -/
def decode : Code → DecodeResult
  | .arm w => decodeArm w
  | .thumb h => decodeThumb h

/-- The decoder on bytes as memory holds them, little-endian (R106, R150): what it reads and the bytes left over, or `none`
when there are too few bytes for one instruction of the set. -/
def decodeBytes : Isa → List Byte → Option (DecodeResult × List Byte)
  | .arm, b0 :: b1 :: b2 :: b3 :: rest => some (decodeArm (b3 ++ b2 ++ b1 ++ b0), rest)
  | .thumb, b0 :: b1 :: rest => some (decodeThumb (b1 ++ b0), rest)
  | _, _ => none

/-- The raw instruction a table row of `nbits` bits stands for: 32 bits are an ARM word, 16 a Thumb halfword (R150). -/
def tableCode (nbits w : Nat) : Option Code :=
  if nbits = 32 then some (.arm (BitVec.ofNat 32 w))
  else if nbits = 16 then some (.thumb (BitVec.ofNat 16 w))
  else none

/-- The instruction set of a raw instruction. -/
def Code.isa : Code → Isa
  | .arm _ => .arm
  | .thumb _ => .thumb

/-- The instruction the decoder reads from a table row's word, its bytes laid out as memory holds them. -/
def decodeTableWord (nbits w : Nat) : Option Instr :=
  match tableCode nbits w with
  | none => none
  | some c =>
    match decodeBytes c.isa c.bytes with
    | some (.instr i, _) => some i
    | _ => none

/-! ## The encoder -/

/-- The word or halfword of an instruction, each row's pattern from spec/opcode_table.json, most significant field first.
Bits the table calls ignored get the fixed values R151 and R163 show for them. -/
def encode : Instr → Code
  | .andImm cond sf rn rd rotate imm => .arm (cond.bits ++ 0b0010000#7 ++ bit sf ++ reg4 rn ++ reg4 rd ++ rotate ++ imm)
  | .andShimm cond sf rn rd amount ty rm => .arm (cond.bits ++ 0b0000000#7 ++ bit sf ++ reg4 rn ++ reg4 rd ++ amount ++ ty.bits ++ 0b0#1 ++ reg4 rm)
  | .andShreg cond sf rn rd rs ty rm => .arm (cond.bits ++ 0b0000000#7 ++ bit sf ++ reg4 rn ++ reg4 rd ++ reg4 rs ++ 0b0#1 ++ ty.bits ++ 0b1#1 ++ reg4 rm)
  | .eorImm cond sf rn rd rotate imm => .arm (cond.bits ++ 0b0010001#7 ++ bit sf ++ reg4 rn ++ reg4 rd ++ rotate ++ imm)
  | .eorShimm cond sf rn rd amount ty rm => .arm (cond.bits ++ 0b0000001#7 ++ bit sf ++ reg4 rn ++ reg4 rd ++ amount ++ ty.bits ++ 0b0#1 ++ reg4 rm)
  | .eorShreg cond sf rn rd rs ty rm => .arm (cond.bits ++ 0b0000001#7 ++ bit sf ++ reg4 rn ++ reg4 rd ++ reg4 rs ++ 0b0#1 ++ ty.bits ++ 0b1#1 ++ reg4 rm)
  | .subImm cond sf rn rd rotate imm => .arm (cond.bits ++ 0b0010010#7 ++ bit sf ++ reg4 rn ++ reg4 rd ++ rotate ++ imm)
  | .subShimm cond sf rn rd amount ty rm => .arm (cond.bits ++ 0b0000010#7 ++ bit sf ++ reg4 rn ++ reg4 rd ++ amount ++ ty.bits ++ 0b0#1 ++ reg4 rm)
  | .subShreg cond sf rn rd rs ty rm => .arm (cond.bits ++ 0b0000010#7 ++ bit sf ++ reg4 rn ++ reg4 rd ++ reg4 rs ++ 0b0#1 ++ ty.bits ++ 0b1#1 ++ reg4 rm)
  | .rsbImm cond sf rn rd rotate imm => .arm (cond.bits ++ 0b0010011#7 ++ bit sf ++ reg4 rn ++ reg4 rd ++ rotate ++ imm)
  | .rsbShimm cond sf rn rd amount ty rm => .arm (cond.bits ++ 0b0000011#7 ++ bit sf ++ reg4 rn ++ reg4 rd ++ amount ++ ty.bits ++ 0b0#1 ++ reg4 rm)
  | .rsbShreg cond sf rn rd rs ty rm => .arm (cond.bits ++ 0b0000011#7 ++ bit sf ++ reg4 rn ++ reg4 rd ++ reg4 rs ++ 0b0#1 ++ ty.bits ++ 0b1#1 ++ reg4 rm)
  | .addImm cond sf rn rd rotate imm => .arm (cond.bits ++ 0b0010100#7 ++ bit sf ++ reg4 rn ++ reg4 rd ++ rotate ++ imm)
  | .addShimm cond sf rn rd amount ty rm => .arm (cond.bits ++ 0b0000100#7 ++ bit sf ++ reg4 rn ++ reg4 rd ++ amount ++ ty.bits ++ 0b0#1 ++ reg4 rm)
  | .addShreg cond sf rn rd rs ty rm => .arm (cond.bits ++ 0b0000100#7 ++ bit sf ++ reg4 rn ++ reg4 rd ++ reg4 rs ++ 0b0#1 ++ ty.bits ++ 0b1#1 ++ reg4 rm)
  | .adcImm cond sf rn rd rotate imm => .arm (cond.bits ++ 0b0010101#7 ++ bit sf ++ reg4 rn ++ reg4 rd ++ rotate ++ imm)
  | .adcShimm cond sf rn rd amount ty rm => .arm (cond.bits ++ 0b0000101#7 ++ bit sf ++ reg4 rn ++ reg4 rd ++ amount ++ ty.bits ++ 0b0#1 ++ reg4 rm)
  | .adcShreg cond sf rn rd rs ty rm => .arm (cond.bits ++ 0b0000101#7 ++ bit sf ++ reg4 rn ++ reg4 rd ++ reg4 rs ++ 0b0#1 ++ ty.bits ++ 0b1#1 ++ reg4 rm)
  | .sbcImm cond sf rn rd rotate imm => .arm (cond.bits ++ 0b0010110#7 ++ bit sf ++ reg4 rn ++ reg4 rd ++ rotate ++ imm)
  | .sbcShimm cond sf rn rd amount ty rm => .arm (cond.bits ++ 0b0000110#7 ++ bit sf ++ reg4 rn ++ reg4 rd ++ amount ++ ty.bits ++ 0b0#1 ++ reg4 rm)
  | .sbcShreg cond sf rn rd rs ty rm => .arm (cond.bits ++ 0b0000110#7 ++ bit sf ++ reg4 rn ++ reg4 rd ++ reg4 rs ++ 0b0#1 ++ ty.bits ++ 0b1#1 ++ reg4 rm)
  | .rscImm cond sf rn rd rotate imm => .arm (cond.bits ++ 0b0010111#7 ++ bit sf ++ reg4 rn ++ reg4 rd ++ rotate ++ imm)
  | .rscShimm cond sf rn rd amount ty rm => .arm (cond.bits ++ 0b0000111#7 ++ bit sf ++ reg4 rn ++ reg4 rd ++ amount ++ ty.bits ++ 0b0#1 ++ reg4 rm)
  | .rscShreg cond sf rn rd rs ty rm => .arm (cond.bits ++ 0b0000111#7 ++ bit sf ++ reg4 rn ++ reg4 rd ++ reg4 rs ++ 0b0#1 ++ ty.bits ++ 0b1#1 ++ reg4 rm)
  | .tstImm cond rn rd rotate imm => .arm (cond.bits ++ 0b00110001#8 ++ reg4 rn ++ reg4 rd ++ rotate ++ imm)
  | .tstShimm cond rn rd amount ty rm => .arm (cond.bits ++ 0b00010001#8 ++ reg4 rn ++ reg4 rd ++ amount ++ ty.bits ++ 0b0#1 ++ reg4 rm)
  | .tstShreg cond rn rd rs ty rm => .arm (cond.bits ++ 0b00010001#8 ++ reg4 rn ++ reg4 rd ++ reg4 rs ++ 0b0#1 ++ ty.bits ++ 0b1#1 ++ reg4 rm)
  | .teqImm cond rn rd rotate imm => .arm (cond.bits ++ 0b00110011#8 ++ reg4 rn ++ reg4 rd ++ rotate ++ imm)
  | .teqShimm cond rn rd amount ty rm => .arm (cond.bits ++ 0b00010011#8 ++ reg4 rn ++ reg4 rd ++ amount ++ ty.bits ++ 0b0#1 ++ reg4 rm)
  | .teqShreg cond rn rd rs ty rm => .arm (cond.bits ++ 0b00010011#8 ++ reg4 rn ++ reg4 rd ++ reg4 rs ++ 0b0#1 ++ ty.bits ++ 0b1#1 ++ reg4 rm)
  | .cmpImm cond rn rd rotate imm => .arm (cond.bits ++ 0b00110101#8 ++ reg4 rn ++ reg4 rd ++ rotate ++ imm)
  | .cmpShimm cond rn rd amount ty rm => .arm (cond.bits ++ 0b00010101#8 ++ reg4 rn ++ reg4 rd ++ amount ++ ty.bits ++ 0b0#1 ++ reg4 rm)
  | .cmpShreg cond rn rd rs ty rm => .arm (cond.bits ++ 0b00010101#8 ++ reg4 rn ++ reg4 rd ++ reg4 rs ++ 0b0#1 ++ ty.bits ++ 0b1#1 ++ reg4 rm)
  | .cmnImm cond rn rd rotate imm => .arm (cond.bits ++ 0b00110111#8 ++ reg4 rn ++ reg4 rd ++ rotate ++ imm)
  | .cmnShimm cond rn rd amount ty rm => .arm (cond.bits ++ 0b00010111#8 ++ reg4 rn ++ reg4 rd ++ amount ++ ty.bits ++ 0b0#1 ++ reg4 rm)
  | .cmnShreg cond rn rd rs ty rm => .arm (cond.bits ++ 0b00010111#8 ++ reg4 rn ++ reg4 rd ++ reg4 rs ++ 0b0#1 ++ ty.bits ++ 0b1#1 ++ reg4 rm)
  | .orrImm cond sf rn rd rotate imm => .arm (cond.bits ++ 0b0011100#7 ++ bit sf ++ reg4 rn ++ reg4 rd ++ rotate ++ imm)
  | .orrShimm cond sf rn rd amount ty rm => .arm (cond.bits ++ 0b0001100#7 ++ bit sf ++ reg4 rn ++ reg4 rd ++ amount ++ ty.bits ++ 0b0#1 ++ reg4 rm)
  | .orrShreg cond sf rn rd rs ty rm => .arm (cond.bits ++ 0b0001100#7 ++ bit sf ++ reg4 rn ++ reg4 rd ++ reg4 rs ++ 0b0#1 ++ ty.bits ++ 0b1#1 ++ reg4 rm)
  | .movImm cond sf rn rd rotate imm => .arm (cond.bits ++ 0b0011101#7 ++ bit sf ++ reg4 rn ++ reg4 rd ++ rotate ++ imm)
  | .movShimm cond sf rn rd amount ty rm => .arm (cond.bits ++ 0b0001101#7 ++ bit sf ++ reg4 rn ++ reg4 rd ++ amount ++ ty.bits ++ 0b0#1 ++ reg4 rm)
  | .movShreg cond sf rn rd rs ty rm => .arm (cond.bits ++ 0b0001101#7 ++ bit sf ++ reg4 rn ++ reg4 rd ++ reg4 rs ++ 0b0#1 ++ ty.bits ++ 0b1#1 ++ reg4 rm)
  | .bicImm cond sf rn rd rotate imm => .arm (cond.bits ++ 0b0011110#7 ++ bit sf ++ reg4 rn ++ reg4 rd ++ rotate ++ imm)
  | .bicShimm cond sf rn rd amount ty rm => .arm (cond.bits ++ 0b0001110#7 ++ bit sf ++ reg4 rn ++ reg4 rd ++ amount ++ ty.bits ++ 0b0#1 ++ reg4 rm)
  | .bicShreg cond sf rn rd rs ty rm => .arm (cond.bits ++ 0b0001110#7 ++ bit sf ++ reg4 rn ++ reg4 rd ++ reg4 rs ++ 0b0#1 ++ ty.bits ++ 0b1#1 ++ reg4 rm)
  | .mvnImm cond sf rn rd rotate imm => .arm (cond.bits ++ 0b0011111#7 ++ bit sf ++ reg4 rn ++ reg4 rd ++ rotate ++ imm)
  | .mvnShimm cond sf rn rd amount ty rm => .arm (cond.bits ++ 0b0001111#7 ++ bit sf ++ reg4 rn ++ reg4 rd ++ amount ++ ty.bits ++ 0b0#1 ++ reg4 rm)
  | .mvnShreg cond sf rn rd rs ty rm => .arm (cond.bits ++ 0b0001111#7 ++ bit sf ++ reg4 rn ++ reg4 rd ++ reg4 rs ++ 0b0#1 ++ ty.bits ++ 0b1#1 ++ reg4 rm)
  | .mrs cond spsr rd => .arm (cond.bits ++ 0b00010#5 ++ bit spsr ++ 0b00#2 ++ 0b1111#4 ++ reg4 rd ++ 0b0000#4 ++ 0b0000#4 ++ 0b0000#4)
  | .msrReg cond spsr mask rm => .arm (cond.bits ++ 0b00010#5 ++ bit spsr ++ 0b10#2 ++ mask.bits ++ 0b11110000#8 ++ 0b0000#4 ++ reg4 rm)
  | .msrImm cond spsr mask rotate imm => .arm (cond.bits ++ 0b00110#5 ++ bit spsr ++ 0b10#2 ++ mask.bits ++ 0b1111#4 ++ rotate ++ imm)
  | .mul cond sf rd rs rm => .arm (cond.bits ++ 0b0000000#7 ++ bit sf ++ reg4 rd ++ 0b0000#4 ++ reg4 rs ++ 0b1001#4 ++ reg4 rm)
  | .mla cond sf rd rn rs rm => .arm (cond.bits ++ 0b0000001#7 ++ bit sf ++ reg4 rd ++ reg4 rn ++ reg4 rs ++ 0b1001#4 ++ reg4 rm)
  | .umull cond sf rdHi rdLo rs rm => .arm (cond.bits ++ 0b0000100#7 ++ bit sf ++ reg4 rdHi ++ reg4 rdLo ++ reg4 rs ++ 0b1001#4 ++ reg4 rm)
  | .umlal cond sf rdHi rdLo rs rm => .arm (cond.bits ++ 0b0000101#7 ++ bit sf ++ reg4 rdHi ++ reg4 rdLo ++ reg4 rs ++ 0b1001#4 ++ reg4 rm)
  | .smull cond sf rdHi rdLo rs rm => .arm (cond.bits ++ 0b0000110#7 ++ bit sf ++ reg4 rdHi ++ reg4 rdLo ++ reg4 rs ++ 0b1001#4 ++ reg4 rm)
  | .smlal cond sf rdHi rdLo rs rm => .arm (cond.bits ++ 0b0000111#7 ++ bit sf ++ reg4 rdHi ++ reg4 rdLo ++ reg4 rs ++ 0b1001#4 ++ reg4 rm)
  | .swp cond rn rd rm => .arm (cond.bits ++ 0b00010000#8 ++ reg4 rn ++ reg4 rd ++ 0b0000#4 ++ 0b1001#4 ++ reg4 rm)
  | .swpb cond rn rd rm => .arm (cond.bits ++ 0b00010100#8 ++ reg4 rn ++ reg4 rd ++ 0b0000#4 ++ 0b1001#4 ++ reg4 rm)
  | .bx cond rm => .arm (cond.bits ++ 0b00010010#8 ++ 0b111111111111#12 ++ 0b0001#4 ++ reg4 rm)
  | .strImm cond p u w rn rd imm => .arm (cond.bits ++ 0b010#3 ++ bit p ++ bit u ++ 0b0#1 ++ bit w ++ 0b0#1 ++ reg4 rn ++ reg4 rd ++ imm)
  | .strReg cond p u w rn rd amount ty rm => .arm (cond.bits ++ 0b011#3 ++ bit p ++ bit u ++ 0b0#1 ++ bit w ++ 0b0#1 ++ reg4 rn ++ reg4 rd ++ amount ++ ty.bits ++ 0b0#1 ++ reg4 rm)
  | .strtImm cond u rn rd imm => .arm (cond.bits ++ 0b0100#4 ++ bit u ++ 0b010#3 ++ reg4 rn ++ reg4 rd ++ imm)
  | .strtReg cond u rn rd amount ty rm => .arm (cond.bits ++ 0b0110#4 ++ bit u ++ 0b010#3 ++ reg4 rn ++ reg4 rd ++ amount ++ ty.bits ++ 0b0#1 ++ reg4 rm)
  | .ldrImm cond p u w rn rd imm => .arm (cond.bits ++ 0b010#3 ++ bit p ++ bit u ++ 0b0#1 ++ bit w ++ 0b1#1 ++ reg4 rn ++ reg4 rd ++ imm)
  | .ldrReg cond p u w rn rd amount ty rm => .arm (cond.bits ++ 0b011#3 ++ bit p ++ bit u ++ 0b0#1 ++ bit w ++ 0b1#1 ++ reg4 rn ++ reg4 rd ++ amount ++ ty.bits ++ 0b0#1 ++ reg4 rm)
  | .ldrtImm cond u rn rd imm => .arm (cond.bits ++ 0b0100#4 ++ bit u ++ 0b011#3 ++ reg4 rn ++ reg4 rd ++ imm)
  | .ldrtReg cond u rn rd amount ty rm => .arm (cond.bits ++ 0b0110#4 ++ bit u ++ 0b011#3 ++ reg4 rn ++ reg4 rd ++ amount ++ ty.bits ++ 0b0#1 ++ reg4 rm)
  | .strbImm cond p u w rn rd imm => .arm (cond.bits ++ 0b010#3 ++ bit p ++ bit u ++ 0b1#1 ++ bit w ++ 0b0#1 ++ reg4 rn ++ reg4 rd ++ imm)
  | .strbReg cond p u w rn rd amount ty rm => .arm (cond.bits ++ 0b011#3 ++ bit p ++ bit u ++ 0b1#1 ++ bit w ++ 0b0#1 ++ reg4 rn ++ reg4 rd ++ amount ++ ty.bits ++ 0b0#1 ++ reg4 rm)
  | .strbtImm cond u rn rd imm => .arm (cond.bits ++ 0b0100#4 ++ bit u ++ 0b110#3 ++ reg4 rn ++ reg4 rd ++ imm)
  | .strbtReg cond u rn rd amount ty rm => .arm (cond.bits ++ 0b0110#4 ++ bit u ++ 0b110#3 ++ reg4 rn ++ reg4 rd ++ amount ++ ty.bits ++ 0b0#1 ++ reg4 rm)
  | .ldrbImm cond p u w rn rd imm => .arm (cond.bits ++ 0b010#3 ++ bit p ++ bit u ++ 0b1#1 ++ bit w ++ 0b1#1 ++ reg4 rn ++ reg4 rd ++ imm)
  | .ldrbReg cond p u w rn rd amount ty rm => .arm (cond.bits ++ 0b011#3 ++ bit p ++ bit u ++ 0b1#1 ++ bit w ++ 0b1#1 ++ reg4 rn ++ reg4 rd ++ amount ++ ty.bits ++ 0b0#1 ++ reg4 rm)
  | .ldrbtImm cond u rn rd imm => .arm (cond.bits ++ 0b0100#4 ++ bit u ++ 0b111#3 ++ reg4 rn ++ reg4 rd ++ imm)
  | .ldrbtReg cond u rn rd amount ty rm => .arm (cond.bits ++ 0b0110#4 ++ bit u ++ 0b111#3 ++ reg4 rn ++ reg4 rd ++ amount ++ ty.bits ++ 0b0#1 ++ reg4 rm)
  | .strhImm cond p u w rn rd imm => .arm (cond.bits ++ 0b000#3 ++ bit p ++ bit u ++ 0b1#1 ++ bit w ++ 0b0#1 ++ reg4 rn ++ reg4 rd ++ imm.extractLsb' 4 4 ++ 0b1011#4 ++ imm.extractLsb' 0 4)
  | .strhReg cond p u w rn rd rm => .arm (cond.bits ++ 0b000#3 ++ bit p ++ bit u ++ 0b0#1 ++ bit w ++ 0b0#1 ++ reg4 rn ++ reg4 rd ++ 0b0000#4 ++ 0b1011#4 ++ reg4 rm)
  | .ldrhImm cond p u w rn rd imm => .arm (cond.bits ++ 0b000#3 ++ bit p ++ bit u ++ 0b1#1 ++ bit w ++ 0b1#1 ++ reg4 rn ++ reg4 rd ++ imm.extractLsb' 4 4 ++ 0b1011#4 ++ imm.extractLsb' 0 4)
  | .ldrhReg cond p u w rn rd rm => .arm (cond.bits ++ 0b000#3 ++ bit p ++ bit u ++ 0b0#1 ++ bit w ++ 0b1#1 ++ reg4 rn ++ reg4 rd ++ 0b0000#4 ++ 0b1011#4 ++ reg4 rm)
  | .ldrsbImm cond p u w rn rd imm => .arm (cond.bits ++ 0b000#3 ++ bit p ++ bit u ++ 0b1#1 ++ bit w ++ 0b1#1 ++ reg4 rn ++ reg4 rd ++ imm.extractLsb' 4 4 ++ 0b1101#4 ++ imm.extractLsb' 0 4)
  | .ldrsbReg cond p u w rn rd rm => .arm (cond.bits ++ 0b000#3 ++ bit p ++ bit u ++ 0b0#1 ++ bit w ++ 0b1#1 ++ reg4 rn ++ reg4 rd ++ 0b0000#4 ++ 0b1101#4 ++ reg4 rm)
  | .ldrshImm cond p u w rn rd imm => .arm (cond.bits ++ 0b000#3 ++ bit p ++ bit u ++ 0b1#1 ++ bit w ++ 0b1#1 ++ reg4 rn ++ reg4 rd ++ imm.extractLsb' 4 4 ++ 0b1111#4 ++ imm.extractLsb' 0 4)
  | .ldrshReg cond p u w rn rd rm => .arm (cond.bits ++ 0b000#3 ++ bit p ++ bit u ++ 0b0#1 ++ bit w ++ 0b1#1 ++ reg4 rn ++ reg4 rd ++ 0b0000#4 ++ 0b1111#4 ++ reg4 rm)
  | .ldmia cond ub w rn list => .arm (cond.bits ++ 0b10001#5 ++ bit ub ++ bit w ++ 0b1#1 ++ reg4 rn ++ list)
  | .stmia cond ub w rn list => .arm (cond.bits ++ 0b10001#5 ++ bit ub ++ bit w ++ 0b0#1 ++ reg4 rn ++ list)
  | .ldmib cond ub w rn list => .arm (cond.bits ++ 0b10011#5 ++ bit ub ++ bit w ++ 0b1#1 ++ reg4 rn ++ list)
  | .stmib cond ub w rn list => .arm (cond.bits ++ 0b10011#5 ++ bit ub ++ bit w ++ 0b0#1 ++ reg4 rn ++ list)
  | .ldmda cond ub w rn list => .arm (cond.bits ++ 0b10000#5 ++ bit ub ++ bit w ++ 0b1#1 ++ reg4 rn ++ list)
  | .stmda cond ub w rn list => .arm (cond.bits ++ 0b10000#5 ++ bit ub ++ bit w ++ 0b0#1 ++ reg4 rn ++ list)
  | .ldmdb cond ub w rn list => .arm (cond.bits ++ 0b10010#5 ++ bit ub ++ bit w ++ 0b1#1 ++ reg4 rn ++ list)
  | .stmdb cond ub w rn list => .arm (cond.bits ++ 0b10010#5 ++ bit ub ++ bit w ++ 0b0#1 ++ reg4 rn ++ list)
  | .b cond imm => .arm (cond.bits ++ 0b1010#4 ++ imm)
  | .bl cond imm => .arm (cond.bits ++ 0b1011#4 ++ imm)
  | .swi cond comment => .arm (cond.bits ++ 0b1111#4 ++ comment)
  | .tLslImm imm rs rd => .thumb (0b00000#5 ++ imm ++ lo3 rs ++ lo3 rd)
  | .tLsrImm imm rs rd => .thumb (0b00001#5 ++ imm ++ lo3 rs ++ lo3 rd)
  | .tAsrImm imm rs rd => .thumb (0b00010#5 ++ imm ++ lo3 rs ++ lo3 rd)
  | .tAddReg rn rs rd => .thumb (0b0001100#7 ++ lo3 rn ++ lo3 rs ++ lo3 rd)
  | .tSubReg rn rs rd => .thumb (0b0001101#7 ++ lo3 rn ++ lo3 rs ++ lo3 rd)
  | .tAddImm3 imm rs rd => .thumb (0b0001110#7 ++ imm ++ lo3 rs ++ lo3 rd)
  | .tSubImm3 imm rs rd => .thumb (0b0001111#7 ++ imm ++ lo3 rs ++ lo3 rd)
  | .tMovImm rd imm => .thumb (0b00100#5 ++ lo3 rd ++ imm)
  | .tCmpImm rd imm => .thumb (0b00101#5 ++ lo3 rd ++ imm)
  | .tAddImm8 rd imm => .thumb (0b00110#5 ++ lo3 rd ++ imm)
  | .tSubImm8 rd imm => .thumb (0b00111#5 ++ lo3 rd ++ imm)
  | .tAnd rs rd => .thumb (0b0100000000#10 ++ lo3 rs ++ lo3 rd)
  | .tEor rs rd => .thumb (0b0100000001#10 ++ lo3 rs ++ lo3 rd)
  | .tLslReg rs rd => .thumb (0b0100000010#10 ++ lo3 rs ++ lo3 rd)
  | .tLsrReg rs rd => .thumb (0b0100000011#10 ++ lo3 rs ++ lo3 rd)
  | .tAsrReg rs rd => .thumb (0b0100000100#10 ++ lo3 rs ++ lo3 rd)
  | .tAdc rs rd => .thumb (0b0100000101#10 ++ lo3 rs ++ lo3 rd)
  | .tSbc rs rd => .thumb (0b0100000110#10 ++ lo3 rs ++ lo3 rd)
  | .tRor rs rd => .thumb (0b0100000111#10 ++ lo3 rs ++ lo3 rd)
  | .tTst rs rd => .thumb (0b0100001000#10 ++ lo3 rs ++ lo3 rd)
  | .tNeg rs rd => .thumb (0b0100001001#10 ++ lo3 rs ++ lo3 rd)
  | .tCmpReg rs rd => .thumb (0b0100001010#10 ++ lo3 rs ++ lo3 rd)
  | .tCmn rs rd => .thumb (0b0100001011#10 ++ lo3 rs ++ lo3 rd)
  | .tOrr rs rd => .thumb (0b0100001100#10 ++ lo3 rs ++ lo3 rd)
  | .tMul rs rd => .thumb (0b0100001101#10 ++ lo3 rs ++ lo3 rd)
  | .tBic rs rd => .thumb (0b0100001110#10 ++ lo3 rs ++ lo3 rd)
  | .tMvn rs rd => .thumb (0b0100001111#10 ++ lo3 rs ++ lo3 rd)
  | .tAddHi h1 h2 rs rd => .thumb (0b01000100#8 ++ bit h1 ++ bit h2 ++ lo3 rs ++ lo3 rd)
  | .tCmpHi h1 h2 rs rd => .thumb (0b01000101#8 ++ bit h1 ++ bit h2 ++ lo3 rs ++ lo3 rd)
  | .tMovHi h1 h2 rs rd => .thumb (0b01000110#8 ++ bit h1 ++ bit h2 ++ lo3 rs ++ lo3 rd)
  | .tBx h1 h2 rs rd => .thumb (0b01000111#8 ++ bit h1 ++ bit h2 ++ lo3 rs ++ lo3 rd)
  | .tLdrPc rd imm => .thumb (0b01001#5 ++ lo3 rd ++ imm)
  | .tStrReg ro rb rd => .thumb (0b0101000#7 ++ lo3 ro ++ lo3 rb ++ lo3 rd)
  | .tStrbReg ro rb rd => .thumb (0b0101010#7 ++ lo3 ro ++ lo3 rb ++ lo3 rd)
  | .tLdrReg ro rb rd => .thumb (0b0101100#7 ++ lo3 ro ++ lo3 rb ++ lo3 rd)
  | .tLdrbReg ro rb rd => .thumb (0b0101110#7 ++ lo3 ro ++ lo3 rb ++ lo3 rd)
  | .tStrhReg ro rb rd => .thumb (0b0101001#7 ++ lo3 ro ++ lo3 rb ++ lo3 rd)
  | .tLdsb ro rb rd => .thumb (0b0101011#7 ++ lo3 ro ++ lo3 rb ++ lo3 rd)
  | .tLdrhReg ro rb rd => .thumb (0b0101101#7 ++ lo3 ro ++ lo3 rb ++ lo3 rd)
  | .tLdsh ro rb rd => .thumb (0b0101111#7 ++ lo3 ro ++ lo3 rb ++ lo3 rd)
  | .tStrImm imm rb rd => .thumb (0b01100#5 ++ imm ++ lo3 rb ++ lo3 rd)
  | .tLdrImm imm rb rd => .thumb (0b01101#5 ++ imm ++ lo3 rb ++ lo3 rd)
  | .tStrbImm imm rb rd => .thumb (0b01110#5 ++ imm ++ lo3 rb ++ lo3 rd)
  | .tLdrbImm imm rb rd => .thumb (0b01111#5 ++ imm ++ lo3 rb ++ lo3 rd)
  | .tStrhImm imm rb rd => .thumb (0b10000#5 ++ imm ++ lo3 rb ++ lo3 rd)
  | .tLdrhImm imm rb rd => .thumb (0b10001#5 ++ imm ++ lo3 rb ++ lo3 rd)
  | .tStrSp rd imm => .thumb (0b10010#5 ++ lo3 rd ++ imm)
  | .tLdrSp rd imm => .thumb (0b10011#5 ++ lo3 rd ++ imm)
  | .tAddPc rd imm => .thumb (0b10100#5 ++ lo3 rd ++ imm)
  | .tAddSp rd imm => .thumb (0b10101#5 ++ lo3 rd ++ imm)
  | .tAddSpImm imm => .thumb (0b101100000#9 ++ imm)
  | .tSubSpImm imm => .thumb (0b101100001#9 ++ imm)
  | .tPush lr list => .thumb (0b1011010#7 ++ bit lr ++ list)
  | .tPop pc list => .thumb (0b1011110#7 ++ bit pc ++ list)
  | .tStmia rb list => .thumb (0b11000#5 ++ lo3 rb ++ list)
  | .tLdmia rb list => .thumb (0b11001#5 ++ lo3 rb ++ list)
  | .tBcond cond imm => .thumb (0b1101#4 ++ cond.bits ++ imm)
  | .tSwi comment => .thumb (0b11011111#8 ++ comment)
  | .tB imm => .thumb (0b11100#5 ++ imm)
  | .tBlHi imm => .thumb (0b11110#5 ++ imm)
  | .tBlLo imm => .thumb (0b11111#5 ++ imm)

end Sys2Proof
end

