-- ==== Sys2Proof/Config.lean ====
section
/-! DEFINITION. The named implementation parameters of 00_scope.md R17 as plain data, each at its default, and the names
they range over. The functions that read them are in Machine/. REGIONS is `Memory.regions`; RESET_ENTRY and RESET_REGS are
arguments of `State.resetWith` (assumptions 1, 2, 3). -/

namespace Sys2Proof

/-- `NV_COND` (R17, R221): what condition `0b1111` does. -/
inductive NvCond where
  | never
  | fault
  deriving DecidableEq, Repr

/-- The two offsets `PC_REGSHIFT_OFFSET` and `STORE_PC_OFFSET` range over (R17). -/
inductive PcOffset where
  | plus8
  | plus12
  deriving DecidableEq, Repr

/-- `MISALIGNED_HALF` (R17, R333, R335). -/
inductive MisalignedHalf where
  | ror16
  | arm7
  deriving DecidableEq, Repr

/-- `EMPTY_RLIST` (R17, R346). -/
inductive EmptyRlist where
  | fault
  | arm7
  deriving DecidableEq, Repr

/-- `COND_FAIL_CYCLES` (R17, R744). -/
inductive CondFailCycles where
  | zero
  | oneS
  deriving DecidableEq, Repr

/-- `PREFETCH_HAZARD` (R17, R720). -/
inductive PrefetchHazard where
  | ignore
  | fault
  deriving DecidableEq, Repr

/-- `RESET_ENTRY` (R17, R700). -/
inductive ResetEntry where
  | hardware
  | skipBios
  deriving DecidableEq, Repr

/-- The region classes of wait-state accounting (R105). -/
inductive RegionClass where
  | bios | ewram | iwram | io | palette | vram | oam | ws0 | ws1 | ws2 | sram | other
  deriving DecidableEq, Repr

/-- The width of one bus access (R117, R130). -/
inductive Width where
  | w8 | w16 | w32
  deriving DecidableEq, Repr

/-- The class of one bus access: non-sequential or sequential (R130, R134). -/
inductive AccessClass where
  | N | S
  deriving DecidableEq, Repr

/-- One entry of a `WAIT_TABLE` that replaces the default table: the cost at one argument (R17, R130, assumption 4). -/
structure WaitEntry where
  region : RegionClass
  width : Width
  cls : AccessClass
  waitcnt : Half
  cost : Word
  deriving DecidableEq, Repr

/-- The parameters of R17. `waitTable` lists the arguments at which `WAIT_TABLE` differs from the default table of R131;
its domain is finite, so every `WAIT_TABLE` is some list (assumption 4). -/
structure Config where
  strictUnpredictable : Bool := true
  nvCond : NvCond := .never
  pcRegshiftOffset : PcOffset := .plus8
  storePcOffset : PcOffset := .plus12
  misalignedHalf : MisalignedHalf := .ror16
  emptyRlist : EmptyRlist := .fault
  fiqPresent : Bool := false
  waitTable : List WaitEntry := []
  condFailCycles : CondFailCycles := .zero
  prefetchHazard : PrefetchHazard := .ignore
  deriving DecidableEq, Repr

/-- Every parameter at the default R17 gives it. -/
def Config.default : Config := {}

end Sys2Proof
end

