-- ==== Sys2Proof/Machine/State.lean ====
section
/-! DEFINITION. The state of the core (10_state.md R50 to R85), the reasons a step can stop (00_scope.md R13, R14), and the
state after reset (70_reset_and_hazards.md R700 to R709). Plain data throughout. -/

namespace Sys2Proof.Machine

/-! ## Modes and registers -/

/-- The seven operating modes (R53). -/
inductive Mode where
  | usr | fiq | irq | svc | abt | und | sys
  deriving DecidableEq, Repr

/-- The physical registers a visible register can name (R52, R54). The index counts within the bank: `usr` from R0, `fiq` from
R8, the others from R13. -/
inductive PhysReg where
  | usr (i : Fin 15)
  | fiq (i : Fin 7)
  | irq (i : Fin 2)
  | svc (i : Fin 2)
  | abt (i : Fin 2)
  | und (i : Fin 2)
  | pc
  deriving DecidableEq, Repr

/-- The thirty physical general registers (R50, R52). -/
structure RegFile where
  usr : Vector Word 15
  fiq : Vector Word 7
  irq : Vector Word 2
  svc : Vector Word 2
  abt : Vector Word 2
  und : Vector Word 2
  deriving DecidableEq, Repr

/-- Every general register at one value. -/
def RegFile.fill (v : Word) : RegFile :=
  { usr := Vector.replicate 15 v, fiq := Vector.replicate 7 v, irq := Vector.replicate 2 v
    svc := Vector.replicate 2 v, abt := Vector.replicate 2 v, und := Vector.replicate 2 v }

/-! ## Memory -/

/-- A region of the bus: the half-open address range `[start, stop)` (R101). -/
structure Region where
  start : Nat
  stop : Nat
  deriving DecidableEq, Repr

/-- The bus: the region table, and the bytes of its buffers as the pairs of an address and a nonzero byte, addresses rising
(R101). A mapped address with no pair holds 0 (assumption 3). -/
structure Memory where
  regions : List Region
  cells : List Host.Cell
  deriving DecidableEq, Repr

/-! ## Inputs -/

/-- What the outside world does at one step: the bytes collaborators write between the previous step and this one (R125), and the
levels of the interrupt inputs this step samples (R615) (assumption 5). -/
structure EnvStep where
  irq : Bool := false
  fiq : Bool := false
  writes : List (Word × Byte) := []
  deriving DecidableEq, Repr

/-! ## The state record -/

/-- The state (R50). `regs` to `waitcnt` are the record of R50; `mem` is the bus (R101); `config` holds the parameters of R17, which
no step changes (assumption 1); `env` the inputs of the steps to come (assumption 5); `cyclesOut` the `cycles` output of the last
step (R80, assumption 6). -/
structure State where
  regs : RegFile
  pc : Word
  cpsr : Word
  spsrFiq : Word
  spsrIrq : Word
  spsrSvc : Word
  spsrAbt : Word
  spsrUnd : Word
  cycles : Word
  waitcnt : Half
  mem : Memory
  config : Config
  env : List EnvStep
  cyclesOut : Word
  deriving DecidableEq, Repr

/-! ## Reset -/

/-- The values `RESET_REGS` supplies: the general registers, the flags N, Z, C, V in that order, and the SPSRs (R17, R701 to
R704). -/
structure ResetRegs where
  regs : RegFile
  flags : BitVec 4
  spsrFiq : Word
  spsrIrq : Word
  spsrSvc : Word
  spsrAbt : Word
  spsrUnd : Word
  deriving DecidableEq, Repr

/-- `RESET_REGS` with every value 0: what this model names, since the spec names none (assumption 2). -/
def ResetRegs.zero : ResetRegs :=
  { regs := RegFile.fill 0, flags := 0, spsrFiq := 0, spsrIrq := 0, spsrSvc := 0, spsrAbt := 0, spsrUnd := 0 }

/-- The bits of a PSR that exist: N, Z, C, V and the control byte (R56, R71). -/
def psrImplemented : Word := 0xF00000FF#32

/-- The state after reset with `RESET_ENTRY = hardware` (R700 to R708): Supervisor mode, I = F = 1, T = 0, the flags of
`RESET_REGS`, and the pc at the reset vector. -/
def State.resetHardware (cfg : Config) (rr : ResetRegs) (mem : Memory) : State :=
  { regs := rr.regs
    pc := 0
    cpsr := rr.flags ++ 0x00000D3#28
    spsrFiq := rr.spsrFiq &&& psrImplemented
    spsrIrq := rr.spsrIrq &&& psrImplemented
    spsrSvc := rr.spsrSvc &&& psrImplemented
    spsrAbt := rr.spsrAbt &&& psrImplemented
    spsrUnd := rr.spsrUnd &&& psrImplemented
    cycles := 0
    waitcnt := 0
    mem := mem
    config := cfg
    env := []
    cyclesOut := 0 }

/-- The state after reset with `RESET_ENTRY = skip_bios` (R700 to R708): System mode, and the stack pointers the BIOS sets. -/
def State.resetSkipBios (cfg : Config) (mem : Memory) : State :=
  { regs :=
      { RegFile.fill 0 with
        usr := (Vector.replicate 15 0).set 13 0x03007F00
        irq := #v[0x03007FA0, 0]
        svc := #v[0x03007FE0, 0] }
    pc := 0x08000000
    cpsr := 0x0000001F
    spsrFiq := 0, spsrIrq := 0, spsrSvc := 0, spsrAbt := 0, spsrUnd := 0
    cycles := 0
    waitcnt := 0
    mem := mem
    config := cfg
    env := []
    cyclesOut := 0 }

/-- The initial state of a profile (R700). `skip_bios` uses no value of `RESET_REGS` (R708). -/
def State.resetWith (entry : ResetEntry) (cfg : Config) (rr : ResetRegs) (mem : Memory) : State :=
  match entry with
  | .hardware => State.resetHardware cfg rr mem
  | .skipBios => State.resetSkipBios cfg mem

/-- The memory this model resets to: one region over the whole address space, no byte listed (assumption 3). -/
def Memory.reset : Memory := { regions := [⟨0, 2 ^ 32⟩], cells := [] }

/-- The machine right after reset: every parameter at its default, so the `hardware` profile (R17, R700), with the register
values and the memory this model names (assumptions 2 and 3). -/
def State.reset : State := State.resetWith .hardware Config.default ResetRegs.zero Memory.reset

/-! ## How a step can stop -/

/-- The UNPREDICTABLE cases `STRICT_UNPREDICTABLE` and `EMPTY_RLIST` stop at, each under the name its rule gives it. -/
inductive UnpredictableCase where
  /-- A register-specified shift whose Rs is R15 (R237). -/
  | rsIsPC
  /-- A load or store offset register Rm that is R15 (R246, R247). -/
  | rmIsPC
  /-- Write-back to a base that is R15 (R249). -/
  | writebackPC
  /-- MRS to R15 (R284). -/
  | mrsToPC
  /-- MSR from R15 (R285). -/
  | msrFromPC
  /-- The register restrictions of the multiplies (R302, R425). -/
  | mulRegisters
  /-- R15 as the data register of a byte transfer (R330). -/
  | bytePC
  /-- R15 as the data register of a halfword or signed transfer (R331). -/
  | halfwordPC
  /-- STM with write-back whose base is listed and not the lowest (R345). -/
  | stmBaseNotFirst
  /-- An empty register list (R346, R477). -/
  | emptyRegisterList
  /-- A user-bank transfer in User or System mode, or with write-back (R349). -/
  | userBankTransfer
  /-- A block transfer whose base is R15 (43_arm_load_store.md section 5). -/
  | blockBasePC
  /-- The register restrictions of SWP and SWPB (R360). -/
  | swapRegisters
  /-- The UNPREDICTABLE forms of Thumb format 5 (R440). -/
  | thumbHiRegisters
  deriving DecidableEq, Repr

/-- The outcomes `DecodeError` and `Fatal` of a step (R12 to R14). Each leaves the state as it was (R85), and each is an outcome the
spec itself gives, so all are safe. -/
inductive Fault where
  /-- Raised by the fetch of an undefined encoding, with the raw word, the computed index and the instruction set (R13, R162,
  R191). Safe: the spec's own outcome. -/
  | decodeError (raw : Word) (index : BitVec 12) (isa : Isa)
  /-- Raised by MRS and MSR of the SPSR, and by a return from exception, in User or System mode (R62). Safe: the spec's own
  outcome. -/
  | spsrUnavailable
  /-- Raised by a write of the CPSR that would place a value that names no mode in its mode field (R57). Safe: the spec's own
  outcome. -/
  | invalidMode (m : BitVec 5)
  /-- Raised by an UNPREDICTABLE case while its parameter says so (R14, R346). Safe: the spec's own outcome. -/
  | unpredictable (c : UnpredictableCase)
  /-- Raised by condition `0b1111` with `NV_COND = fault` (R221). Safe: the spec's own outcome. -/
  | neverCondition
  /-- Raised by a store into the two instruction slots after it with `PREFETCH_HAZARD = fault` (R720). Safe: the spec's own
  outcome. -/
  | prefetchHazard
  deriving DecidableEq, Repr

/-- The instructions this model has no meaning for. -/
inductive Refusal where
  /-- Raised by an arm of `exec` with no meaning yet, named by its mnemonic. Safe: the step stops. No arm raises it. -/
  | notModelled (mnemonic : String)
  deriving DecidableEq, Repr

/-- What a step or an instruction answers. -/
abbrev Result := Host.Outcome State Fault Refusal

end Sys2Proof.Machine
end

