-- ==== Sys2Proof/Machine/Ops.lean ====
section
/-! DEFINITION. The named operations over registers, status registers, memory and the cycle clock, and the taking of and the
return from an exception (10_state.md, 20_memory.md, 60_exceptions.md, 70_reset_and_hazards.md section 4). -/

namespace Sys2Proof.Machine

/-! ## Modes -/

/-- The mode field of a mode (R53). -/
def Mode.bits : Mode → BitVec 5
  | .usr => 0b10000#5
  | .fiq => 0b10001#5
  | .irq => 0b10010#5
  | .svc => 0b10011#5
  | .abt => 0b10111#5
  | .und => 0b11011#5
  | .sys => 0b11111#5

/-- The mode a 5-bit field names, if it names one (R53, R57). -/
def Mode.ofBits? (b : BitVec 5) : Option Mode :=
  match b.toNat with
  | 16 => some .usr
  | 17 => some .fiq
  | 18 => some .irq
  | 19 => some .svc
  | 23 => some .abt
  | 27 => some .und
  | 31 => some .sys
  | _ => none

/-- Every mode but User is privileged (R53, R630). -/
def Mode.privileged (m : Mode) : Bool := m != .usr

/-! ## Status registers -/

/-- N of a PSR (R56). -/
def psrN (p : Word) : Bool := p.getLsbD 31

/-- Z of a PSR (R56). -/
def psrZ (p : Word) : Bool := p.getLsbD 30

/-- C of a PSR (R56). -/
def psrC (p : Word) : Bool := p.getLsbD 29

/-- V of a PSR (R56). -/
def psrV (p : Word) : Bool := p.getLsbD 28

/-- I of a PSR: IRQ disable (R56, R69). -/
def psrI (p : Word) : Bool := p.getLsbD 7

/-- F of a PSR: FIQ disable (R56, R69). -/
def psrF (p : Word) : Bool := p.getLsbD 6

/-- T of a PSR: the instruction set (R56, R70). -/
def psrT (p : Word) : Bool := p.getLsbD 5

/-- The mode field of a PSR (R56). -/
def psrM (p : Word) : BitVec 5 := p.extractLsb' 0 5

/-- A PSR with its four flags replaced. -/
def psrWithFlags (p : Word) (n z c v : Bool) : Word :=
  BitVec.ofBool n ++ BitVec.ofBool z ++ BitVec.ofBool c ++ BitVec.ofBool v ++ p.extractLsb' 0 28

/-- A PSR with its bits I, F, T and M replaced. -/
def psrWithControl (p : Word) (i f t : Bool) (m : BitVec 5) : Word :=
  p.extractLsb' 8 24 ++ BitVec.ofBool i ++ BitVec.ofBool f ++ BitVec.ofBool t ++ m

namespace State

/-- The CPSR as it reads: the reserved bits are 0 (R71, assumption 17). -/
def readCpsr (s : State) : Word := s.cpsr &&& psrImplemented

/-- A write of the CPSR: the reserved bits ignore it (R71). It moves no register value (R58). -/
def writeCpsr (s : State) (v : Word) : State := { s with cpsr := v &&& psrImplemented }

/-- N (R56). -/
def flagN (s : State) : Bool := psrN s.cpsr

/-- Z (R56). -/
def flagZ (s : State) : Bool := psrZ s.cpsr

/-- C (R56). -/
def flagC (s : State) : Bool := psrC s.cpsr

/-- V (R56). -/
def flagV (s : State) : Bool := psrV s.cpsr

/-- T, the instruction set in force: false ARM, true Thumb (R70). -/
def thumb (s : State) : Bool := psrT s.cpsr

/-- A write of the four flags alone. -/
def writeFlags (s : State) (n z c v : Bool) : State := { s with cpsr := psrWithFlags s.cpsr n z c v }

/-- A write of T alone (R373). -/
def writeThumb (s : State) (t : Bool) : State :=
  { s with cpsr := psrWithControl s.cpsr (psrI s.cpsr) (psrF s.cpsr) t (psrM s.cpsr) }

/-- The mode in force (R53). A mode field that names no mode is never written (R57); were it there, the registers of the User
bank would be the ones named (assumption 12). -/
def mode (s : State) : Mode := (Mode.ofBits? (psrM s.cpsr)).getD .usr

/-- The SPSR of a mode, as it reads; User and System have none (R59 to R61, R71). -/
def spsrOf (s : State) : Mode → Option Word
  | .usr => none
  | .fiq => some (s.spsrFiq &&& psrImplemented)
  | .irq => some (s.spsrIrq &&& psrImplemented)
  | .svc => some (s.spsrSvc &&& psrImplemented)
  | .abt => some (s.spsrAbt &&& psrImplemented)
  | .und => some (s.spsrUnd &&& psrImplemented)
  | .sys => none

/-- The SPSR of the current mode (R61). -/
def spsr (s : State) : Option Word := s.spsrOf s.mode

/-- A write of the SPSR of a mode (R60, R71). User and System have none, and no instruction gets here in them (R62). -/
def writeSpsrOf (s : State) (m : Mode) (v : Word) : State :=
  match m with
  | .usr => s
  | .fiq => { s with spsrFiq := v &&& psrImplemented }
  | .irq => { s with spsrIrq := v &&& psrImplemented }
  | .svc => { s with spsrSvc := v &&& psrImplemented }
  | .abt => { s with spsrAbt := v &&& psrImplemented }
  | .und => { s with spsrUnd := v &&& psrImplemented }
  | .sys => s

end State

/-! ## General registers -/

/-- Where a visible register from R13 on falls within a two-register bank. -/
def bankIndex (n : Reg) : Fin 2 := if n = 13 then 0 else 1

/-- `Phys(n, m)`: the physical register visible register `n` names in mode `m` (R54). -/
def phys (n : Reg) (m : Mode) : PhysReg :=
  if h : n.val < 15 then
    if n.val < 8 then .usr ⟨n.val, h⟩
    else if n.val < 13 then
      match m with
      | .fiq => .fiq ⟨n.val - 8, by omega⟩
      | _ => .usr ⟨n.val, h⟩
    else
      match m with
      | .usr => .usr ⟨n.val, h⟩
      | .sys => .usr ⟨n.val, h⟩
      | .fiq => .fiq ⟨n.val - 8, by omega⟩
      | .irq => .irq (bankIndex n)
      | .svc => .svc (bankIndex n)
      | .abt => .abt (bankIndex n)
      | .und => .und (bankIndex n)
  else .pc

namespace State

/-- The length in bytes of an instruction of the set in force (R16). -/
def ilen (s : State) : Word := if s.thumb then 2 else 4

/-- An address aligned for an instruction of the set in force (R63, R66). -/
def alignPc (s : State) (v : Word) : Word := if s.thumb then v &&& 0xFFFFFFFE#32 else v &&& 0xFFFFFFFC#32

/-- R15 read as an operand: `pc + 8` in ARM state, `pc + 4` in Thumb state (R64). -/
def pcRead (s : State) : Word := if s.thumb then s.pc + 4 else s.pc + 8

/-- `R[15] <- v`: a branch, aligned for the set in force (R66). -/
def writePc (s : State) (v : Word) : State := { s with pc := s.alignPc v }

/-- The advance of the pc past an instruction that wrote no R15 (R66, R67). -/
def advance (s : State) : State := { s with pc := s.pc + s.ilen }

/-- A read of a physical register; the pc reads as R64 says. -/
def readPhys (s : State) : PhysReg → Word
  | .usr i => s.regs.usr[i]
  | .fiq i => s.regs.fiq[i]
  | .irq i => s.regs.irq[i]
  | .svc i => s.regs.svc[i]
  | .abt i => s.regs.abt[i]
  | .und i => s.regs.und[i]
  | .pc => s.pcRead

/-- A write of a physical register; a write of the pc is a branch (R66). -/
def writePhys (s : State) (r : PhysReg) (v : Word) : State :=
  match r with
  | .usr i => { s with regs := { s.regs with usr := s.regs.usr.set i v } }
  | .fiq i => { s with regs := { s.regs with fiq := s.regs.fiq.set i v } }
  | .irq i => { s with regs := { s.regs with irq := s.regs.irq.set i v } }
  | .svc i => { s with regs := { s.regs with svc := s.regs.svc.set i v } }
  | .abt i => { s with regs := { s.regs with abt := s.regs.abt.set i v } }
  | .und i => { s with regs := { s.regs with und := s.regs.und.set i v } }
  | .pc => s.writePc v

/-- `R_mode[n]` (R55). -/
def readBank (s : State) (m : Mode) (n : Reg) : Word := s.readPhys (phys n m)

/-- `R_mode[n] <- v` (R55). -/
def writeBank (s : State) (m : Mode) (n : Reg) (v : Word) : State := s.writePhys (phys n m) v

/-- `R[n]` (R55, R64). -/
def readReg (s : State) (n : Reg) : Word := s.readBank s.mode n

/-- `R[n] <- v` (R55, R66). -/
def writeReg (s : State) (n : Reg) (v : Word) : State := s.writeBank s.mode n v

end State

/-- An offset parameter as a number (R17). -/
def PcOffset.value : PcOffset → Word
  | .plus8 => 8
  | .plus12 => 12

namespace State

/-- A register read of a data-processing instruction with a register-specified shift: R15 reads `pc + PC_REGSHIFT_OFFSET`
(R237). -/
def readShiftReg (s : State) (n : Reg) : Word :=
  if n = 15 then s.pc + PcOffset.value s.config.pcRegshiftOffset else s.readReg n

/-- `StoreValue`: R15 stores `pc + STORE_PC_OFFSET` (R325, R348). -/
def storeValue (s : State) (n : Reg) : Word :=
  if n = 15 then s.pc + PcOffset.value s.config.storePcOffset else s.readReg n

end State

/-! ## Memory -/

/-- The byte a list of cells holds at an address; an address not listed holds 0 (assumption 3). -/
def Cells.get : List Host.Cell → Nat → Byte
  | [], _ => 0
  | (b, w) :: rest, a => if b = a then w else Cells.get rest a

/-- A pair put in its place by address. -/
def Cells.insert : List Host.Cell → Nat → Byte → List Host.Cell
  | [], a, v => [(a, v)]
  | (b, w) :: rest, a, v => if a < b then (a, v) :: (b, w) :: rest else (b, w) :: Cells.insert rest a v

/-- The cells with the byte at an address replaced: in the canonical form no cell holds 0. -/
def Cells.set (l : List Host.Cell) (a : Nat) (v : Byte) : List Host.Cell :=
  let kept := l.filter fun c => c.1 != a
  if v = 0 then kept else Cells.insert kept a v

/-- Addresses strictly rising. -/
def Cells.sorted : List Host.Cell → Bool
  | [] => true
  | [_] => true
  | c :: d :: rest => decide (c.1 < d.1) && Cells.sorted (d :: rest)

/-- An address lies in a region (R101). -/
def Region.contains (r : Region) (a : Nat) : Bool := decide (r.start ≤ a) && decide (a < r.stop)

/-- Two regions share no address (R101). -/
def Region.disjoint (r t : Region) : Bool := decide (r.stop ≤ t.start) || decide (t.stop ≤ r.start)

/-- Every two regions of a table are disjoint (R101). -/
def Region.allDisjoint : List Region → Bool
  | [] => true
  | r :: rest => rest.all r.disjoint && Region.allDisjoint rest

namespace Memory

/-- Some region holds the address; otherwise it is unmapped (R102). -/
def mapped (m : Memory) (a : Word) : Bool := m.regions.any fun r => r.contains a.toNat

/-- `Byte(a)`: 0 when unmapped (R103, R108). -/
def byte (m : Memory) (a : Word) : Byte := if m.mapped a then Cells.get m.cells a.toNat else 0

/-- `Byte(a) <- v`: nothing when unmapped (R103, R113). -/
def setByte (m : Memory) (a : Word) (v : Byte) : Memory :=
  if m.mapped a then { m with cells := Cells.set m.cells a.toNat v } else m

/-- The canonical form: regions within the address space, not empty and pairwise disjoint (R101); cells with addresses rising,
none holding 0, each mapped. -/
def wf (m : Memory) : Bool :=
  m.regions.all (fun r => decide (r.start < r.stop) && decide (r.stop ≤ 2 ^ 32)) && Region.allDisjoint m.regions &&
    Cells.sorted m.cells && m.cells.all (fun c => c.2 != 0) &&
    m.cells.all (fun c => m.regions.any fun r => r.contains c.1)

/-- `LE16(a)` (R106, R108). -/
def le16 (m : Memory) (a : Word) : Half := m.byte (a + 1) ++ m.byte a

/-- `LE32(a)` (R106, R108). -/
def le32 (m : Memory) (a : Word) : Word := m.byte (a + 3) ++ m.byte (a + 2) ++ m.byte (a + 1) ++ m.byte a

end Memory

/-- The word-aligned address at or below `a` (R112, R115). -/
def alignWord (a : Word) : Word := a &&& 0xFFFFFFFC#32

/-- The halfword-aligned address at or below `a` (R111, R114). -/
def alignHalf (a : Word) : Word := a &&& 0xFFFFFFFE#32

/-- The address a store of a width writes from: forced down to the width (R113 to R115). -/
def alignTo (w : Width) (a : Word) : Word :=
  match w with
  | .w8 => a
  | .w16 => alignHalf a
  | .w32 => alignWord a

namespace State

/-- `MemRead(a, 1)` (R110). -/
def memRead8 (s : State) (a : Word) : Byte := s.mem.byte a

/-- `MemRead(a, 2)`: an odd address exchanges the bytes of the halfword below it (R111). -/
def memRead16 (s : State) (a : Word) : Half := (s.mem.le16 (alignHalf a)).rotateRight (8 * (a.toNat % 2))

/-- `MemRead(a, 4)`: a misaligned address rotates the word below it (R112). -/
def memRead32 (s : State) (a : Word) : Word := (s.mem.le32 (alignWord a)).rotateRight (8 * (a.toNat % 4))

/-- The wait-state register after a byte write: `0x04000204` is its low byte, `0x04000205` its high byte without bits 13 and 15
(R83). -/
def waitcntAfter (wc : Half) (a : Word) (v : Byte) : Half :=
  if a = 0x04000204#32 then wc.extractLsb' 8 8 ++ v
  else if a = 0x04000205#32 then (v &&& 0x5F#8) ++ wc.extractLsb' 0 8
  else wc

/-- A byte write of the core: the region's byte (R113) and the wait-state register (R83). -/
def writeByte (s : State) (a : Word) (v : Byte) : State :=
  { s with mem := s.mem.setByte a v, waitcnt := waitcntAfter s.waitcnt a v }

/-- `MemWrite(a, 1, v)` (R113). -/
def memWrite8 (s : State) (a : Word) (v : Byte) : State := s.writeByte a v

/-- `MemWrite(a, 2, v)`, forced down, byte by byte (R114, R116). -/
def memWrite16 (s : State) (a : Word) (v : Half) : State :=
  let b := alignHalf a
  (s.writeByte b (v.extractLsb' 0 8)).writeByte (b + 1) (v.extractLsb' 8 8)

/-- `MemWrite(a, 4, v)`, forced down, byte by byte (R115, R116). -/
def memWrite32 (s : State) (a : Word) (v : Word) : State :=
  let b := alignWord a
  (((s.writeByte b (v.extractLsb' 0 8)).writeByte (b + 1) (v.extractLsb' 8 8)).writeByte (b + 2)
    (v.extractLsb' 16 8)).writeByte (b + 3) (v.extractLsb' 24 8)

end State

/-! ## The cycle clock -/

/-- `RegionClass(a)` (R105). -/
def regionClass (a : Word) : RegionClass :=
  match (a.extractLsb' 24 8).toNat with
  | 0 => if a.toNat < 0x4000 then .bios else .other
  | 2 => .ewram
  | 3 => .iwram
  | 4 => .io
  | 5 => .palette
  | 6 => .vram
  | 7 => .oam
  | 8 => .ws0
  | 9 => .ws0
  | 10 => .ws1
  | 11 => .ws1
  | 12 => .ws2
  | 13 => .ws2
  | 14 => .sram
  | 15 => .sram
  | _ => .other

/-- `NW`: the first-access wait states of a 2-bit field (R82, R131). -/
def firstWait (b : BitVec 2) : Word :=
  match b.toNat with
  | 0 => 4
  | 1 => 3
  | 2 => 2
  | _ => 8

/-- The cost of a cartridge access of class N or S, from its wait states: a 32-bit access is two of 16 bits (R131, R132). -/
def cartridgeCost (n k : Word) (w : Width) (cls : AccessClass) : Word :=
  match w, cls with
  | .w32, .N => (1 + n) + (1 + k)
  | .w32, .S => 2 * (1 + k)
  | _, .N => 1 + n
  | _, .S => 1 + k

/-- The default `WAIT_TABLE` (R131). -/
def defaultWait (r : RegionClass) (w : Width) (cls : AccessClass) (wc : Half) : Word :=
  match r with
  | .ewram => if w = .w32 then 6 else 3
  | .palette => if w = .w32 then 2 else 1
  | .vram => if w = .w32 then 2 else 1
  | .ws0 => cartridgeCost (firstWait (wc.extractLsb' 2 2)) (if wc.getLsbD 4 then 1 else 2) w cls
  | .ws1 => cartridgeCost (firstWait (wc.extractLsb' 5 2)) (if wc.getLsbD 7 then 1 else 4) w cls
  | .ws2 => cartridgeCost (firstWait (wc.extractLsb' 8 2)) (if wc.getLsbD 10 then 1 else 8) w cls
  | .sram => 1 + firstWait (wc.extractLsb' 0 2)
  | .bios => 1
  | .iwram => 1
  | .io => 1
  | .oam => 1
  | .other => 1

/-- `WAIT_TABLE`: the first entry of the parameter for these arguments, else the default (R17, R130, assumption 4). -/
def waitCost (cfg : Config) (r : RegionClass) (w : Width) (cls : AccessClass) (wc : Half) : Word :=
  match cfg.waitTable.find? fun e => e.region == r && e.width == w && e.cls == cls && e.waitcnt == wc with
  | some e => e.cost
  | none => defaultWait r w cls wc

namespace State

/-- `Cycles(a, w, k)` (R130). -/
def charge (s : State) (a : Word) (w : Width) (k : AccessClass) : State :=
  { s with cycles := s.cycles + waitCost s.config (regionClass a) w k s.waitcnt }

/-- `Internal(k)` (R130). -/
def internal (s : State) (k : Word) : State := { s with cycles := s.cycles + k }

/-- The width of an instruction fetch of the set in force (R117, R730). -/
def codeWidth (s : State) : Width := if s.thumb then .w16 else .w32

/-- `Code(k)`: the instruction's own fetch (R730). -/
def chargeCode (s : State) (k : AccessClass) : State := s.charge s.pc s.codeWidth k

/-- `Refill`: the two fetches at the new pc, in the state after the instruction (R730). -/
def refill (s : State) : State := (s.charge s.pc s.codeWidth .N).charge (s.pc + s.ilen) s.codeWidth .S

/-- The end of an instruction: the refill if it wrote R15, else the advance of the pc (R66, R730). -/
def finish (s : State) (wrotePc : Bool) : State := if wrotePc then s.refill else s.advance

/-- The charge of a step whose condition fails: `COND_FAIL_CYCLES` (R744). -/
def chargeCondFail (s : State) : State :=
  match s.config.condFailCycles with
  | .zero => s
  | .oneS => s.chargeCode .S

/-- `Data(a_k, 32, ·)` for `n` word transfers from `a` up, the first of class `k` and the rest S, each at its aligned address (R341,
R736). -/
def chargeWords : Nat → Word → AccessClass → State → State
  | 0, _, _, s => s
  | n + 1, a, k, s => chargeWords n (a + 4) .S (s.charge (alignWord a) .w32 k)

/-! ## Checks that precede every write (R85) -/

/-- A check of `STRICT_UNPREDICTABLE`: a bad combination stops when strict, and otherwise the rule goes on (R14, D13). -/
def checked (s : State) (bad : Bool) (c : UnpredictableCase) (k : Result) : Result :=
  if s.config.strictUnpredictable && bad then .fault (.unpredictable c) else k

/-- A store of `n` bytes from `a` reaches one of the two instruction slots after the instruction at the pc (R720, assumption
11). -/
def inPrefetch (s : State) (a : Word) (n : Nat) : Bool :=
  (List.range n).any fun k =>
    let d := (a + BitVec.ofNat 32 k - s.pc).toNat
    decide (s.ilen.toNat ≤ d) && decide (d < 3 * s.ilen.toNat)

/-- A check of `PREFETCH_HAZARD` (R720). -/
def checkedPrefetch (s : State) (hit : Bool) (k : Result) : Result :=
  if s.config.prefetchHazard = .fault ∧ hit then .fault .prefetchHazard else k

/-! ## Taking an exception and returning from one -/

/-- `ExceptionEntry`: the old CPSR goes to the new mode's SPSR, the return address to its R14; the mode, T and I change, F on FIQ
only; the pc goes to the vector (R610, R614). -/
def takeException (s : State) (m : Mode) (vector lr : Word) (setF : Bool) : State :=
  let old := s.readCpsr
  let s1 := s.writeCpsr (psrWithControl old true (setF || psrF old) false m.bits)
  let s2 := s1.writeSpsrOf m old
  let s3 := s2.writeBank m 14 lr
  { s3 with pc := vector }

/-- SWI entry: Supervisor mode, vector `0x08`, and the address of the instruction after the SWI (R611). -/
def takeSwi (s : State) : State := s.takeException .svc 0x00000008 (s.pc + s.ilen) false

/-- IRQ entry: IRQ mode, vector `0x18`, and `pc + 4` in either state (R612). -/
def takeIrq (s : State) : State := s.takeException .irq 0x00000018 (s.pc + 4) false

/-- FIQ entry: FIQ mode, vector `0x1C`, `pc + 4`, and F set (R613). -/
def takeFiq (s : State) : State := s.takeException .fiq 0x0000001C (s.pc + 4) true

/-- The two checks of a return from exception, then the return with the SPSR it copies (R265, R352): there is an SPSR (R62), and its
mode field names a mode (R57). -/
def withReturnPsr (s : State) (k : Word → Result) : Result :=
  match s.spsr with
  | none => .fault .spsrUnavailable
  | some p =>
    match Mode.ofBits? (psrM p) with
    | none => .fault (.invalidMode (psrM p))
    | some _ => k p

/-- The return itself: the CPSR is the SPSR, the pc the target aligned by the restored T (R265, R352). -/
def returnFromException (s : State) (p target : Word) : State := (s.writeCpsr p).writePc target

end State

end Sys2Proof.Machine
end

