-- ==== Sys2Proof/Machine/Flags.lean ====
section
/-! DEFINITION. The condition evaluator and every flag computation (40_operands.md R220 to R222, 41_arm_data_processing.md R260 to
R264, 42_arm_multiply.md R301). -/

namespace Sys2Proof.Machine

/-! ## Conditions -/

/-- `Cond(c, N, Z, C, V)` (R220). -/
def condHolds (c : Cond) (n z cf v : Bool) : Bool :=
  match c with
  | .eq => z
  | .ne => !z
  | .cs => cf
  | .cc => !cf
  | .mi => n
  | .pl => !n
  | .vs => v
  | .vc => !v
  | .hi => cf && !z
  | .ls => !cf || z
  | .ge => n == v
  | .lt => n != v
  | .gt => !z && n == v
  | .le => z || n != v
  | .al => true
  | .nv => false

/-- The condition of an instruction on the flags as they stand (R221). -/
def State.condPasses (s : State) (c : Cond) : Bool := condHolds c s.flagN s.flagZ s.flagC s.flagV

/-- A conditional instruction: condition `0b1111` by `NV_COND`; a false condition only advances the pc and charges
`COND_FAIL_CYCLES` (R221, R744). -/
def conditional (c : Cond) (s : State) (body : Result) : Result :=
  if c = .nv ∧ s.config.nvCond = .fault then .fault .neverCondition
  else if s.condPasses c then body
  else .next s.chargeCondFail.advance

/-! ## The ALU -/

/-- A result with the carry and the overflow it gives. -/
structure AluOut where
  res : Word
  carry : Bool
  overflow : Bool
  deriving DecidableEq, Repr

/-- `AddWithCarry(x, y, cin)`: the 33-bit sum, its carry, and overflow when operands of one sign give the other (R262). -/
def addWithCarry (x y : Word) (cin : Bool) : AluOut :=
  let sum := x.toNat + y.toNat + cin.toNat
  let res := BitVec.ofNat 32 sum
  { res := res, carry := decide (2 ^ 32 ≤ sum), overflow := x.msb == y.msb && res.msb != x.msb }

/-- A value with the carry the barrel shifter gives beside it (R225). -/
structure Shifted where
  value : Word
  carry : Bool
  deriving DecidableEq, Repr

/-- `ALU(opcode, a, op2, C)` with the carry and overflow flags it leaves: a logical operation takes C from the shifter and keeps V
(R263), an arithmetic one takes both from the addition (R260 to R264, R268 to R283). -/
def alu (op : AluOp) (a : Word) (o : Shifted) (c v : Bool) : AluOut :=
  match op with
  | .and => { res := a &&& o.value, carry := o.carry, overflow := v }
  | .eor => { res := a ^^^ o.value, carry := o.carry, overflow := v }
  | .sub => addWithCarry a (~~~o.value) true
  | .rsb => addWithCarry o.value (~~~a) true
  | .add => addWithCarry a o.value false
  | .adc => addWithCarry a o.value c
  | .sbc => addWithCarry a (~~~o.value) c
  | .rsc => addWithCarry o.value (~~~a) c
  | .tst => { res := a &&& o.value, carry := o.carry, overflow := v }
  | .teq => { res := a ^^^ o.value, carry := o.carry, overflow := v }
  | .cmp => addWithCarry a (~~~o.value) true
  | .cmn => addWithCarry a o.value false
  | .orr => { res := a ||| o.value, carry := o.carry, overflow := v }
  | .mov => { res := o.value, carry := o.carry, overflow := v }
  | .bic => { res := a &&& ~~~o.value, carry := o.carry, overflow := v }
  | .mvn => { res := ~~~o.value, carry := o.carry, overflow := v }

/-- The operations that write no register (R260, R267). -/
def isTest : AluOp → Bool
  | .tst => true
  | .teq => true
  | .cmp => true
  | .cmn => true
  | _ => false

namespace State

/-- `SetFlags`: N and Z from the result, C and V as the operation gives them (R263, R264). -/
def setAluFlags (s : State) (r : AluOut) : State := s.writeFlags r.res.msb (r.res == 0) r.carry r.overflow

/-- The flags of a 32-bit multiply: N and Z from the result, C and V kept (R301). -/
def setNZ (s : State) (res : Word) : State := s.writeFlags res.msb (res == 0) s.flagC s.flagV

/-- The flags of a long multiply: N and Z from the 64-bit result, C and V kept (R301). -/
def setNZ64 (s : State) (res : BitVec 64) : State := s.writeFlags res.msb (res == 0) s.flagC s.flagV

end State

end Sys2Proof.Machine
end

