-- ==== Sys2Proof/Machine/Operands.lean ====
section
/-! DEFINITION. The barrel shifter, operand2 and the addressing resolver (40_operands.md R225 to R249), the register lists of the block
transfers (43_arm_load_store.md R340), and the multiplier's early termination (70_reset_and_hazards.md R732). -/

namespace Sys2Proof.Machine

/-! ## The barrel shifter -/

/-- A shift by 1 to 31, with its carry-out (R227 to R230). -/
def shiftBy (ty : ShiftType) (n : Nat) (v : Word) : Shifted :=
  match ty with
  | .lsl => { value := v <<< n, carry := v.getLsbD (32 - n) }
  | .lsr => { value := v >>> n, carry := v.getLsbD (n - 1) }
  | .asr => { value := v.sshiftRight n, carry := v.getLsbD (n - 1) }
  | .ror => { value := v.rotateRight n, carry := v.getLsbD (n - 1) }

/-- Thirty-two copies of the sign (R226, R234). -/
def signFill (v : Word) : Word := if v.msb then 0xFFFFFFFF#32 else 0

/-- The immediate form: amount 0 is no shift, a shift by 32, or RRX (R226 to R230). -/
def shiftImm (ty : ShiftType) (amount : BitVec 5) (v : Word) (c : Bool) : Shifted :=
  if amount = 0 then
    match ty with
    | .lsl => { value := v, carry := c }
    | .lsr => { value := 0, carry := v.msb }
    | .asr => { value := signFill v, carry := v.msb }
    | .ror => { value := BitVec.ofBool c ++ v.extractLsb' 1 31, carry := v.getLsbD 0 }
  else shiftBy ty amount.toNat v

/-- The register form with an amount of 32 or more (R232 to R235). -/
def shiftBig (ty : ShiftType) (n : Nat) (v : Word) : Shifted :=
  match ty with
  | .lsl => { value := 0, carry := decide (n = 32) && v.getLsbD 0 }
  | .lsr => { value := 0, carry := decide (n = 32) && v.msb }
  | .asr => { value := signFill v, carry := v.msb }
  | .ror => if n % 32 = 0 then { value := v, carry := v.msb } else shiftBy .ror (n % 32) v

/-- The register form: amount 0 changes nothing, 1 to 31 as the immediate form (R231). -/
def shiftReg (ty : ShiftType) (amount : BitVec 8) (v : Word) (c : Bool) : Shifted :=
  if amount = 0 then { value := v, carry := c }
  else if amount.toNat < 32 then shiftBy ty amount.toNat v
  else shiftBig ty amount.toNat v

/-! ## Operand2 and the MSR immediate -/

/-- The rotated 8-bit immediate (R238, R285). -/
def rotatedImm (rotate : BitVec 4) (imm : BitVec 8) : Word := (imm.zeroExtend 32).rotateRight (2 * rotate.toNat)

/-- Immediate operand2 (R238). -/
def immOperand (rotate : BitVec 4) (imm : BitVec 8) (c : Bool) : Shifted :=
  { value := rotatedImm rotate imm, carry := if rotate = 0 then c else (rotatedImm rotate imm).msb }

/-- Operand2 with an immediate shift (R239). -/
def shimmOperand (s : State) (amount : BitVec 5) (ty : ShiftType) (rm : Reg) : Shifted :=
  shiftImm ty amount (s.readReg rm) s.flagC

/-- Operand2 with a register shift: the amount is the low byte of Rs (R231, R237, R239). -/
def shregOperand (s : State) (rs : Reg) (ty : ShiftType) (rm : Reg) : Shifted :=
  shiftReg ty ((s.readShiftReg rs).extractLsb' 0 8) (s.readShiftReg rm) s.flagC

/-! ## Addresses -/

/-- The shifted register offset of a single data transfer, its carry discarded (R246). -/
def regOffset (s : State) (amount : BitVec 5) (ty : ShiftType) (rm : Reg) : Word := (shimmOperand s amount ty rm).value

/-- `offset_addr` (R245). -/
def offsetAddr (u : Bool) (base off : Word) : Word := if u then base + off else base - off

/-- The address accessed: `offset_addr` when pre-indexed, else the base (R245). -/
def accessAddr (p u : Bool) (base off : Word) : Word := if p then offsetAddr u base off else base

/-- Write-back happens when post-indexed, or when asked for (R248). -/
def writesBack (p w : Bool) : Bool := !p || w

/-! ## Register lists -/

/-- The registers of a list, ascending (R340). -/
def regsOf (list : BitVec 16) : List Reg := (List.finRange 16).filter fun r => list.getLsbD r.val

/-- `start` (R340). -/
def blockStart (p u : Bool) (b : Word) (n : Nat) : Word :=
  match p, u with
  | false, true => b
  | true, true => b + 4
  | false, false => b - BitVec.ofNat 32 (4 * n) + 4
  | true, false => b - BitVec.ofNat 32 (4 * n)

/-- The write-back value (R340). -/
def blockWriteback (u : Bool) (b : Word) (n : Nat) : Word :=
  if u then b + BitVec.ofNat 32 (4 * n) else b - BitVec.ofNat 32 (4 * n)

/-- The registers transferred: an empty list transfers R15 alone (R346). -/
def effectiveList (list : BitVec 16) : BitVec 16 := if list = 0 then 0x8000#16 else list

/-- The count the addresses are computed with: 16 for an empty list (R340, R346). -/
def effectiveCount (list : BitVec 16) : Nat := if list = 0 then 16 else (regsOf list).length

/-! ## The multiplier's early termination -/

/-- `m`, when both all zeros and all ones count (R732). -/
def multiplierCycles (v : Word) : Word :=
  if v.extractLsb' 8 24 = 0 ∨ v.extractLsb' 8 24 = BitVec.allOnes 24 then 1
  else if v.extractLsb' 16 16 = 0 ∨ v.extractLsb' 16 16 = BitVec.allOnes 16 then 2
  else if v.extractLsb' 24 8 = 0 ∨ v.extractLsb' 24 8 = BitVec.allOnes 8 then 3
  else 4

/-- `m` for UMULL and UMLAL, where only all zeros counts (R732). -/
def multiplierCyclesUnsigned (v : Word) : Word :=
  if v.extractLsb' 8 24 = 0 then 1
  else if v.extractLsb' 16 16 = 0 then 2
  else if v.extractLsb' 24 8 = 0 then 3
  else 4

/-! ## Fields of Thumb -/

/-- A 3-bit register field as a visible register (R400). -/
def lo (r : LoReg) : Reg := r.castLE (by decide)

/-- The register `H:rrr` of Thumb format 5 (R428). -/
def hiReg (h : Bool) (r : LoReg) : Reg := if h then ⟨r.val + 8, by omega⟩ else lo r

end Sys2Proof.Machine
end

