-- ==== Sys2Proof/Machine/LoadStore.lean ====
section
/-! DEFINITION. The shared loads and stores, and ARM single data transfer (43_arm_load_store.md R320 to R330, timing R734, R735). -/

namespace Sys2Proof.Machine

/-! ## Loads and stores of every width -/

/-- What a load reads and how it extends (R321, R322, R333 to R335). -/
inductive LoadKind where
  | word | byte | half | signedByte | signedHalf
  deriving DecidableEq, Repr

/-- What a store writes (R323, R324, R332). -/
inductive StoreKind where
  | word | byte | half
  deriving DecidableEq, Repr

/-- The access width of a load (R117). -/
def LoadKind.width : LoadKind → Width
  | .word => .w32
  | .byte => .w8
  | .half => .w16
  | .signedByte => .w8
  | .signedHalf => .w16

/-- The access width of a store (R117). -/
def StoreKind.width : StoreKind → Width
  | .word => .w32
  | .byte => .w8
  | .half => .w16

/-- The bytes a store writes. -/
def StoreKind.bytes : StoreKind → Nat
  | .word => 4
  | .byte => 1
  | .half => 2

/-- An odd halfword address is loaded as the ARM7TDMI does only under `MISALIGNED_HALF = arm7` (R333, R335). -/
def oddHalfArm7 (s : State) (addr : Word) : Bool := addr.getLsbD 0 && decide (s.config.misalignedHalf = .arm7)

/-- The value a load gives its register (R321, R322, R333 to R335). -/
def loadValue (k : LoadKind) (s : State) (addr : Word) : Word :=
  match k with
  | .word => s.memRead32 addr
  | .byte => (s.memRead8 addr).zeroExtend 32
  | .half =>
    if oddHalfArm7 s addr then ((s.memRead16 (alignHalf addr)).zeroExtend 32).rotateRight 8
    else (s.memRead16 addr).zeroExtend 32
  | .signedByte => (s.memRead8 addr).signExtend 32
  | .signedHalf =>
    if oddHalfArm7 s addr then (s.memRead8 addr).signExtend 32 else (s.memRead16 addr).signExtend 32

/-- The write of a store: the low part of the value, at the address forced down (R323, R324, R332). -/
def storeAt (k : StoreKind) (addr v : Word) (s : State) : State :=
  match k with
  | .word => s.memWrite32 addr v
  | .byte => s.memWrite8 addr (v.extractLsb' 0 8)
  | .half => s.memWrite16 addr (v.extractLsb' 0 16)

/-- A write-back, when there is one. -/
def writeBase (wb : Option (Reg × Word)) (s : State) : State :=
  match wb with
  | none => s
  | some (r, x) => s.writeReg r x

/-- A write-back to R15 is a branch (R249). -/
def branchesBase (wb : Option (Reg × Word)) : Bool :=
  match wb with
  | none => false
  | some (r, _) => decide (r = 15)

/-- The register writes of a load: the write-back, then Rd; a write of R15 as Rd is suppressed by a write-back to R15 (R320, R249,
assumption 8). -/
def writeLoaded (wb : Option (Reg × Word)) (rd : Reg) (v : Word) (s : State) : State :=
  if branchesBase wb && rd = 15 then writeBase wb s else (writeBase wb s).writeReg rd v

/-- The body of every single load: the access, then the register writes (R320, R734). -/
def loadFrom (k : LoadKind) (rd : Reg) (addr : Word) (wb : Option (Reg × Word)) (s : State) : Result :=
  let v := loadValue k s addr
  let t := ((s.chargeCode .S).charge addr k.width .N).internal 1
  .next ((writeLoaded wb rd v t).finish (rd = 15 || branchesBase wb))

/-- The body of every single store: the value is read already; the access, then the write-back (R320, R735). -/
def storeTo (k : StoreKind) (addr v : Word) (wb : Option (Reg × Word)) (s : State) : Result :=
  s.checkedPrefetch (s.inPrefetch (alignTo k.width addr) k.bytes)
    (let t := storeAt k addr v ((s.chargeCode .N).charge addr k.width .N)
     .next ((writeBase wb t).finish (branchesBase wb)))

/-! ## ARM single transfers -/

/-- A load by base and offset: write-back to R15 is UNPREDICTABLE, and write-back to any other base is suppressed when Rd is the base
(R245, R248, R249, R320, assumption 8). -/
def loadSingle (k : LoadKind) (p u w : Bool) (rn rd : Reg) (off : Word) (s : State) : Result :=
  let base := s.readReg rn
  s.checked (writesBack p w && rn = 15) .writebackPC
    (loadFrom k rd (accessAddr p u base off)
      (if writesBack p w && (rd != rn || rn = 15) then some (rn, offsetAddr u base off) else none) s)

/-- A store by base and offset (R245, R248, R249, R320, R325). -/
def storeSingle (k : StoreKind) (p u w : Bool) (rn rd : Reg) (off : Word) (s : State) : Result :=
  let base := s.readReg rn
  s.checked (writesBack p w && rn = 15) .writebackPC
    (storeTo k (accessAddr p u base off) (s.storeValue rd)
      (if writesBack p w then some (rn, offsetAddr u base off) else none) s)

/-- STR_imm (R323, R320). -/
def execStrImm (cond : Cond) (p u w : Bool) (rn rd : Reg) (imm : BitVec 12) (s : State) : Result :=
  conditional cond s (storeSingle .word p u w rn rd (imm.zeroExtend 32) s)

/-- STR_reg (R323, R320). -/
def execStrReg (cond : Cond) (p u w : Bool) (rn rd : Reg) (amount : BitVec 5) (ty : ShiftType) (rm : Reg) (s : State) : Result :=
  conditional cond s (s.checked (rm = 15) .rmIsPC (storeSingle .word p u w rn rd (regOffset s amount ty rm) s))

/-- STRT_imm (R328, R320; post-indexed with write-back). -/
def execStrtImm (cond : Cond) (u : Bool) (rn rd : Reg) (imm : BitVec 12) (s : State) : Result :=
  conditional cond s (storeSingle .word false u true rn rd (imm.zeroExtend 32) s)

/-- STRT_reg (R328, R320; post-indexed with write-back). -/
def execStrtReg (cond : Cond) (u : Bool) (rn rd : Reg) (amount : BitVec 5) (ty : ShiftType) (rm : Reg) (s : State) : Result :=
  conditional cond s (s.checked (rm = 15) .rmIsPC (storeSingle .word false u true rn rd (regOffset s amount ty rm) s))

/-- LDR_imm (R321, R320). -/
def execLdrImm (cond : Cond) (p u w : Bool) (rn rd : Reg) (imm : BitVec 12) (s : State) : Result :=
  conditional cond s (loadSingle .word p u w rn rd (imm.zeroExtend 32) s)

/-- LDR_reg (R321, R320). -/
def execLdrReg (cond : Cond) (p u w : Bool) (rn rd : Reg) (amount : BitVec 5) (ty : ShiftType) (rm : Reg) (s : State) : Result :=
  conditional cond s (s.checked (rm = 15) .rmIsPC (loadSingle .word p u w rn rd (regOffset s amount ty rm) s))

/-- LDRT_imm (R326, R320; post-indexed with write-back). -/
def execLdrtImm (cond : Cond) (u : Bool) (rn rd : Reg) (imm : BitVec 12) (s : State) : Result :=
  conditional cond s (loadSingle .word false u true rn rd (imm.zeroExtend 32) s)

/-- LDRT_reg (R326, R320; post-indexed with write-back). -/
def execLdrtReg (cond : Cond) (u : Bool) (rn rd : Reg) (amount : BitVec 5) (ty : ShiftType) (rm : Reg) (s : State) : Result :=
  conditional cond s (s.checked (rm = 15) .rmIsPC (loadSingle .word false u true rn rd (regOffset s amount ty rm) s))

/-- STRB_imm (R324, R320). -/
def execStrbImm (cond : Cond) (p u w : Bool) (rn rd : Reg) (imm : BitVec 12) (s : State) : Result :=
  conditional cond s (s.checked (rd = 15) .bytePC (storeSingle .byte p u w rn rd (imm.zeroExtend 32) s))

/-- STRB_reg (R324, R320). -/
def execStrbReg (cond : Cond) (p u w : Bool) (rn rd : Reg) (amount : BitVec 5) (ty : ShiftType) (rm : Reg) (s : State) : Result :=
  conditional cond s (s.checked (rd = 15) .bytePC (s.checked (rm = 15) .rmIsPC (storeSingle .byte p u w rn rd (regOffset s amount ty rm) s)))

/-- STRBT_imm (R329, R320; post-indexed with write-back). -/
def execStrbtImm (cond : Cond) (u : Bool) (rn rd : Reg) (imm : BitVec 12) (s : State) : Result :=
  conditional cond s (s.checked (rd = 15) .bytePC (storeSingle .byte false u true rn rd (imm.zeroExtend 32) s))

/-- STRBT_reg (R329, R320; post-indexed with write-back). -/
def execStrbtReg (cond : Cond) (u : Bool) (rn rd : Reg) (amount : BitVec 5) (ty : ShiftType) (rm : Reg) (s : State) : Result :=
  conditional cond s (s.checked (rd = 15) .bytePC (s.checked (rm = 15) .rmIsPC (storeSingle .byte false u true rn rd (regOffset s amount ty rm) s)))

/-- LDRB_imm (R322, R320). -/
def execLdrbImm (cond : Cond) (p u w : Bool) (rn rd : Reg) (imm : BitVec 12) (s : State) : Result :=
  conditional cond s (s.checked (rd = 15) .bytePC (loadSingle .byte p u w rn rd (imm.zeroExtend 32) s))

/-- LDRB_reg (R322, R320). -/
def execLdrbReg (cond : Cond) (p u w : Bool) (rn rd : Reg) (amount : BitVec 5) (ty : ShiftType) (rm : Reg) (s : State) : Result :=
  conditional cond s (s.checked (rd = 15) .bytePC (s.checked (rm = 15) .rmIsPC (loadSingle .byte p u w rn rd (regOffset s amount ty rm) s)))

/-- LDRBT_imm (R327, R320; post-indexed with write-back). -/
def execLdrbtImm (cond : Cond) (u : Bool) (rn rd : Reg) (imm : BitVec 12) (s : State) : Result :=
  conditional cond s (s.checked (rd = 15) .bytePC (loadSingle .byte false u true rn rd (imm.zeroExtend 32) s))

/-- LDRBT_reg (R327, R320; post-indexed with write-back). -/
def execLdrbtReg (cond : Cond) (u : Bool) (rn rd : Reg) (amount : BitVec 5) (ty : ShiftType) (rm : Reg) (s : State) : Result :=
  conditional cond s (s.checked (rd = 15) .bytePC (s.checked (rm = 15) .rmIsPC (loadSingle .byte false u true rn rd (regOffset s amount ty rm) s)))

end Sys2Proof.Machine
end

