-- ==== Sys2Proof/Machine/Block.lean ====
section
/-! DEFINITION. Block data transfer (43_arm_load_store.md R340 to R352, R362 to R369, timing R736, R737). -/

namespace Sys2Proof.Machine

/-! ## Checks -/

/-- The registers listed below another are not the lowest (R345). -/
def notLowest (list : BitVec 16) (n : Reg) : Bool := (regsOf list).any fun r => decide (r.val < n.val)

/-- STM with write-back whose base is listed and not the lowest (R345). -/
def baseNotFirst (w : Bool) (rn : Reg) (list : BitVec 16) : Bool := w && list.getLsbD rn.val && notLowest list rn

/-- `CheckUserBank` finds an UNPREDICTABLE transfer: S = 1 without the return of an LDM of R15, in User or System mode or with
write-back (R349). -/
def badUserBank (isReturn ub w : Bool) (s : State) : Bool :=
  ub && !isReturn && (s.mode == .usr || s.mode == .sys || w)

/-- The checks of the block transfers, in their order: an empty list, the user bank, the listed base of an STM (`notFirst`), then for an
LDM that returns its SPSR, which `k` gets; a base of R15 last (R344 to R346, R349, R352, section 5, assumption 7). -/
def checkedBlock (list : BitVec 16) (isReturn ub w notFirst : Bool) (rn : Reg) (s : State) (k : Word → Result) : Result :=
  if list = 0 ∧ s.config.emptyRlist = .fault then .fault (.unpredictable .emptyRegisterList)
  else
    s.checked (badUserBank isReturn ub w s) .userBankTransfer
      (s.checked notFirst .stmBaseNotFirst
        (if isReturn then s.withReturnPsr fun p => s.checked (rn = 15) .blockBasePC (k p)
         else s.checked (rn = 15) .blockBasePC (k 0)))

/-! ## Transfers -/

/-- The loads of listed registers from ascending word addresses into a bank (R340 to R342, R350). -/
def loadRegs (m : Mode) : Word → List Reg → State → State
  | _, [], t => t
  | a, r :: rest, t => loadRegs m (a + 4) rest (t.writeBank m r (t.memRead32 (alignWord a)))

/-- The stores of listed registers to ascending word addresses, each charged before it (R340, R341, R344, R737, assumption 14). -/
def storeRegs (val : Reg → Word) : Word → AccessClass → List Reg → State → State
  | _, _, [], t => t
  | a, k, r :: rest, t =>
    storeRegs val (a + 4) .S rest ((t.charge (alignWord a) .w32 k).memWrite32 (alignWord a) (val r))

/-- The value STM stores for a register: the pc at its own offset, the base's write-back value when it is not the lowest, and the
User bank when S = 1 (R344, R345, R348, R350). -/
def blockStoreValue (ub w : Bool) (rn : Reg) (list : BitVec 16) (wbv : Word) (s : State) (r : Reg) : Word :=
  if r = rn ∧ baseNotFirst w rn list then wbv
  else if r = 15 then s.storeValue 15
  else if ub then s.readBank .usr r
  else s.readReg r

/-- Some store of a block of `n` words from `start` reaches the prefetched instructions (R720). -/
def blockInPrefetch (s : State) (start : Word) (n : Nat) : Bool :=
  (List.range n).any fun k => s.inPrefetch (alignWord (start + BitVec.ofNat 32 (4 * k))) 4

/-- LDM: the base is written back first unless listed; then the listed registers, R15 last, as a branch or as the return from an
exception (R342, R343, R346, R347, R350, R352, R736). -/
def blockLoad (p u ub w : Bool) (rn : Reg) (list : BitVec 16) (s : State) : Result :=
  let regs := effectiveList list
  let n := effectiveCount list
  let b := s.readReg rn
  let start := blockStart p u b n
  let low := (regsOf regs).filter fun r => r != 15
  let hasPc := regs.getLsbD 15
  let wb := if w && !regs.getLsbD rn.val then some (rn, blockWriteback u b n) else none
  checkedBlock list (ub && hasPc) ub w false rn s fun psr =>
    let t := (State.chargeWords (regsOf regs).length start .N (s.chargeCode .S)).internal 1
    let t1 := loadRegs (if ub && !hasPc then .usr else s.mode) start low (writeBase wb t)
    let v := s.memRead32 (alignWord (start + BitVec.ofNat 32 (4 * low.length)))
    let t2 := if !hasPc then t1 else if ub then t1.returnFromException psr v else t1.writePc v
    .next (t2.finish (hasPc || branchesBase wb))

/-- STM: the stores in ascending order, then the write-back (R344, R345, R346, R348, R350, R737). -/
def blockStore (p u ub w : Bool) (rn : Reg) (list : BitVec 16) (s : State) : Result :=
  let regs := effectiveList list
  let n := effectiveCount list
  let b := s.readReg rn
  let start := blockStart p u b n
  let wbv := blockWriteback u b n
  let wb := if w then some (rn, wbv) else none
  checkedBlock list false ub w (baseNotFirst w rn regs) rn s fun _ =>
    s.checkedPrefetch (blockInPrefetch s start (regsOf regs).length)
      (let t := storeRegs (blockStoreValue ub w rn regs wbv s) start .N (regsOf regs) (s.chargeCode .N)
       .next ((writeBase wb t).finish (branchesBase wb)))

/-! ## The instructions -/

/-- LDMIA (R362, R342). -/
def execLdmia (cond : Cond) (ub w : Bool) (rn : Reg) (list : BitVec 16) (s : State) : Result :=
  conditional cond s (blockLoad false true ub w rn list s)

/-- STMIA (R366, R344). -/
def execStmia (cond : Cond) (ub w : Bool) (rn : Reg) (list : BitVec 16) (s : State) : Result :=
  conditional cond s (blockStore false true ub w rn list s)

/-- LDMIB (R363, R342). -/
def execLdmib (cond : Cond) (ub w : Bool) (rn : Reg) (list : BitVec 16) (s : State) : Result :=
  conditional cond s (blockLoad true true ub w rn list s)

/-- STMIB (R367, R344). -/
def execStmib (cond : Cond) (ub w : Bool) (rn : Reg) (list : BitVec 16) (s : State) : Result :=
  conditional cond s (blockStore true true ub w rn list s)

/-- LDMDA (R364, R342). -/
def execLdmda (cond : Cond) (ub w : Bool) (rn : Reg) (list : BitVec 16) (s : State) : Result :=
  conditional cond s (blockLoad false false ub w rn list s)

/-- STMDA (R368, R344). -/
def execStmda (cond : Cond) (ub w : Bool) (rn : Reg) (list : BitVec 16) (s : State) : Result :=
  conditional cond s (blockStore false false ub w rn list s)

/-- LDMDB (R365, R342). -/
def execLdmdb (cond : Cond) (ub w : Bool) (rn : Reg) (list : BitVec 16) (s : State) : Result :=
  conditional cond s (blockLoad true false ub w rn list s)

/-- STMDB (R369, R344). -/
def execStmdb (cond : Cond) (ub w : Bool) (rn : Reg) (list : BitVec 16) (s : State) : Result :=
  conditional cond s (blockStore true false ub w rn list s)

end Sys2Proof.Machine
end

