-- ==== Sys2Proof/Machine/Branch.lean ====
section
/-! DEFINITION. ARM branch, branch-exchange and software interrupt (44_arm_branch.md R370 to R374, timing R739 to R741). -/

namespace Sys2Proof.Machine

/-- A taken branch (R66, R739). -/
def branchTo (target : Word) (s : State) : Result := .next (((s.chargeCode .S).writePc target).finish true)

/-- The target of B and BL (R370). -/
def branchTarget (imm : BitVec 24) (s : State) : Word := s.pc + 8 + (imm ++ 0#2).signExtend 32

/-- BX: bit 0 of the operand selects the instruction set, and the target is aligned for it (R373, R740). -/
def branchExchange (v : Word) (s : State) : Result :=
  .next ((((s.chargeCode .S).writeThumb (v.getLsbD 0)).writePc v).finish true)

/-- SWI: the entry of R611 as the instruction's execution (R374, R479, R741). -/
def softwareInterrupt (s : State) : Result := .next ((s.chargeCode .S).takeSwi.finish true)

/-- B (R371, R370). -/
def execB (cond : Cond) (imm : BitVec 24) (s : State) : Result :=
  conditional cond s (branchTo (branchTarget imm s) s)

/-- BL (R372, R370). -/
def execBl (cond : Cond) (imm : BitVec 24) (s : State) : Result :=
  conditional cond s (branchTo (branchTarget imm s) (s.writeReg 14 (s.pc + 4)))

/-- BX (R373). -/
def execBx (cond : Cond) (rm : Reg) (s : State) : Result :=
  conditional cond s (branchExchange (s.readReg rm) s)

/-- SWI (R374, R610, R611; the comment field is ignored). -/
def execSwi (cond : Cond) (_comment : BitVec 24) (s : State) : Result :=
  conditional cond s (softwareInterrupt s)

end Sys2Proof.Machine
end

