-- ==== Sys2Proof/Machine/DataProc.lean ====
section
/-! DEFINITION. ARM data processing (41_arm_data_processing.md R260 to R283, timing R731). -/

namespace Sys2Proof.Machine

/-- The common rule once the operands are read: the ALU, then the write of Rd and the flags. `extra` is the internal cycles of the
form. With S = 1, an Rd of 15 returns from an exception instead of setting flags; with S = 0 it is a branch (R261 to R267, R731). -/
def dataProcess (op : AluOp) (sf : Bool) (rd : Reg) (a : Word) (o : Shifted) (extra : Word) (s : State) : Result :=
  let r := alu op a o s.flagC s.flagV
  let t := (s.chargeCode .S).internal extra
  if isTest op then .next ((t.setAluFlags r).finish false)
  else if rd = 15 ∧ sf then s.withReturnPsr fun p => .next ((t.returnFromException p r.res).finish true)
  else if sf then .next (((t.writeReg rd r.res).setAluFlags r).finish false)
  else .next ((t.writeReg rd r.res).finish (rd = 15))

/-- Data processing with an immediate operand2 (R238, R261). -/
def dataProcImm (op : AluOp) (sf : Bool) (rn rd : Reg) (rotate : BitVec 4) (imm : BitVec 8) (s : State) : Result :=
  dataProcess op sf rd (s.readReg rn) (immOperand rotate imm s.flagC) 0 s

/-- Data processing with an immediate shift (R239, R261). -/
def dataProcShimm (op : AluOp) (sf : Bool) (rn rd : Reg) (amount : BitVec 5) (ty : ShiftType) (rm : Reg) (s : State) : Result :=
  dataProcess op sf rd (s.readReg rn) (shimmOperand s amount ty rm) 0 s

/-- Data processing with a register shift: Rs = 15 is UNPREDICTABLE, and R15 reads at its own offset (R237, R239, R261). -/
def dataProcShreg (op : AluOp) (sf : Bool) (rn rd rs : Reg) (ty : ShiftType) (rm : Reg) (s : State) : Result :=
  s.checked (rs = 15) .rsIsPC (dataProcess op sf rd (s.readShiftReg rn) (shregOperand s rs ty rm) 1 s)

/-- AND_imm (R268). -/
def execAndImm (cond : Cond) (sf : Bool) (rn rd : Reg) (rotate : BitVec 4) (imm : BitVec 8) (s : State) : Result :=
  conditional cond s (dataProcImm .and sf rn rd rotate imm s)

/-- AND_shimm (R268). -/
def execAndShimm (cond : Cond) (sf : Bool) (rn rd : Reg) (amount : BitVec 5) (ty : ShiftType) (rm : Reg) (s : State) : Result :=
  conditional cond s (dataProcShimm .and sf rn rd amount ty rm s)

/-- AND_shreg (R268). -/
def execAndShreg (cond : Cond) (sf : Bool) (rn rd rs : Reg) (ty : ShiftType) (rm : Reg) (s : State) : Result :=
  conditional cond s (dataProcShreg .and sf rn rd rs ty rm s)

/-- EOR_imm (R269). -/
def execEorImm (cond : Cond) (sf : Bool) (rn rd : Reg) (rotate : BitVec 4) (imm : BitVec 8) (s : State) : Result :=
  conditional cond s (dataProcImm .eor sf rn rd rotate imm s)

/-- EOR_shimm (R269). -/
def execEorShimm (cond : Cond) (sf : Bool) (rn rd : Reg) (amount : BitVec 5) (ty : ShiftType) (rm : Reg) (s : State) : Result :=
  conditional cond s (dataProcShimm .eor sf rn rd amount ty rm s)

/-- EOR_shreg (R269). -/
def execEorShreg (cond : Cond) (sf : Bool) (rn rd rs : Reg) (ty : ShiftType) (rm : Reg) (s : State) : Result :=
  conditional cond s (dataProcShreg .eor sf rn rd rs ty rm s)

/-- SUB_imm (R270). -/
def execSubImm (cond : Cond) (sf : Bool) (rn rd : Reg) (rotate : BitVec 4) (imm : BitVec 8) (s : State) : Result :=
  conditional cond s (dataProcImm .sub sf rn rd rotate imm s)

/-- SUB_shimm (R270). -/
def execSubShimm (cond : Cond) (sf : Bool) (rn rd : Reg) (amount : BitVec 5) (ty : ShiftType) (rm : Reg) (s : State) : Result :=
  conditional cond s (dataProcShimm .sub sf rn rd amount ty rm s)

/-- SUB_shreg (R270). -/
def execSubShreg (cond : Cond) (sf : Bool) (rn rd rs : Reg) (ty : ShiftType) (rm : Reg) (s : State) : Result :=
  conditional cond s (dataProcShreg .sub sf rn rd rs ty rm s)

/-- RSB_imm (R271). -/
def execRsbImm (cond : Cond) (sf : Bool) (rn rd : Reg) (rotate : BitVec 4) (imm : BitVec 8) (s : State) : Result :=
  conditional cond s (dataProcImm .rsb sf rn rd rotate imm s)

/-- RSB_shimm (R271). -/
def execRsbShimm (cond : Cond) (sf : Bool) (rn rd : Reg) (amount : BitVec 5) (ty : ShiftType) (rm : Reg) (s : State) : Result :=
  conditional cond s (dataProcShimm .rsb sf rn rd amount ty rm s)

/-- RSB_shreg (R271). -/
def execRsbShreg (cond : Cond) (sf : Bool) (rn rd rs : Reg) (ty : ShiftType) (rm : Reg) (s : State) : Result :=
  conditional cond s (dataProcShreg .rsb sf rn rd rs ty rm s)

/-- ADD_imm (R272). -/
def execAddImm (cond : Cond) (sf : Bool) (rn rd : Reg) (rotate : BitVec 4) (imm : BitVec 8) (s : State) : Result :=
  conditional cond s (dataProcImm .add sf rn rd rotate imm s)

/-- ADD_shimm (R272). -/
def execAddShimm (cond : Cond) (sf : Bool) (rn rd : Reg) (amount : BitVec 5) (ty : ShiftType) (rm : Reg) (s : State) : Result :=
  conditional cond s (dataProcShimm .add sf rn rd amount ty rm s)

/-- ADD_shreg (R272). -/
def execAddShreg (cond : Cond) (sf : Bool) (rn rd rs : Reg) (ty : ShiftType) (rm : Reg) (s : State) : Result :=
  conditional cond s (dataProcShreg .add sf rn rd rs ty rm s)

/-- ADC_imm (R273). -/
def execAdcImm (cond : Cond) (sf : Bool) (rn rd : Reg) (rotate : BitVec 4) (imm : BitVec 8) (s : State) : Result :=
  conditional cond s (dataProcImm .adc sf rn rd rotate imm s)

/-- ADC_shimm (R273). -/
def execAdcShimm (cond : Cond) (sf : Bool) (rn rd : Reg) (amount : BitVec 5) (ty : ShiftType) (rm : Reg) (s : State) : Result :=
  conditional cond s (dataProcShimm .adc sf rn rd amount ty rm s)

/-- ADC_shreg (R273). -/
def execAdcShreg (cond : Cond) (sf : Bool) (rn rd rs : Reg) (ty : ShiftType) (rm : Reg) (s : State) : Result :=
  conditional cond s (dataProcShreg .adc sf rn rd rs ty rm s)

/-- SBC_imm (R274). -/
def execSbcImm (cond : Cond) (sf : Bool) (rn rd : Reg) (rotate : BitVec 4) (imm : BitVec 8) (s : State) : Result :=
  conditional cond s (dataProcImm .sbc sf rn rd rotate imm s)

/-- SBC_shimm (R274). -/
def execSbcShimm (cond : Cond) (sf : Bool) (rn rd : Reg) (amount : BitVec 5) (ty : ShiftType) (rm : Reg) (s : State) : Result :=
  conditional cond s (dataProcShimm .sbc sf rn rd amount ty rm s)

/-- SBC_shreg (R274). -/
def execSbcShreg (cond : Cond) (sf : Bool) (rn rd rs : Reg) (ty : ShiftType) (rm : Reg) (s : State) : Result :=
  conditional cond s (dataProcShreg .sbc sf rn rd rs ty rm s)

/-- RSC_imm (R275). -/
def execRscImm (cond : Cond) (sf : Bool) (rn rd : Reg) (rotate : BitVec 4) (imm : BitVec 8) (s : State) : Result :=
  conditional cond s (dataProcImm .rsc sf rn rd rotate imm s)

/-- RSC_shimm (R275). -/
def execRscShimm (cond : Cond) (sf : Bool) (rn rd : Reg) (amount : BitVec 5) (ty : ShiftType) (rm : Reg) (s : State) : Result :=
  conditional cond s (dataProcShimm .rsc sf rn rd amount ty rm s)

/-- RSC_shreg (R275). -/
def execRscShreg (cond : Cond) (sf : Bool) (rn rd rs : Reg) (ty : ShiftType) (rm : Reg) (s : State) : Result :=
  conditional cond s (dataProcShreg .rsc sf rn rd rs ty rm s)

/-- TST_imm (R276; S is always 1, Rd ignored, R267). -/
def execTstImm (cond : Cond) (rn rd : Reg) (rotate : BitVec 4) (imm : BitVec 8) (s : State) : Result :=
  conditional cond s (dataProcImm .tst true rn rd rotate imm s)

/-- TST_shimm (R276; S is always 1, Rd ignored, R267). -/
def execTstShimm (cond : Cond) (rn rd : Reg) (amount : BitVec 5) (ty : ShiftType) (rm : Reg) (s : State) : Result :=
  conditional cond s (dataProcShimm .tst true rn rd amount ty rm s)

/-- TST_shreg (R276; S is always 1, Rd ignored, R267). -/
def execTstShreg (cond : Cond) (rn rd rs : Reg) (ty : ShiftType) (rm : Reg) (s : State) : Result :=
  conditional cond s (dataProcShreg .tst true rn rd rs ty rm s)

/-- TEQ_imm (R277; S is always 1, Rd ignored, R267). -/
def execTeqImm (cond : Cond) (rn rd : Reg) (rotate : BitVec 4) (imm : BitVec 8) (s : State) : Result :=
  conditional cond s (dataProcImm .teq true rn rd rotate imm s)

/-- TEQ_shimm (R277; S is always 1, Rd ignored, R267). -/
def execTeqShimm (cond : Cond) (rn rd : Reg) (amount : BitVec 5) (ty : ShiftType) (rm : Reg) (s : State) : Result :=
  conditional cond s (dataProcShimm .teq true rn rd amount ty rm s)

/-- TEQ_shreg (R277; S is always 1, Rd ignored, R267). -/
def execTeqShreg (cond : Cond) (rn rd rs : Reg) (ty : ShiftType) (rm : Reg) (s : State) : Result :=
  conditional cond s (dataProcShreg .teq true rn rd rs ty rm s)

/-- CMP_imm (R278; S is always 1, Rd ignored, R267). -/
def execCmpImm (cond : Cond) (rn rd : Reg) (rotate : BitVec 4) (imm : BitVec 8) (s : State) : Result :=
  conditional cond s (dataProcImm .cmp true rn rd rotate imm s)

/-- CMP_shimm (R278; S is always 1, Rd ignored, R267). -/
def execCmpShimm (cond : Cond) (rn rd : Reg) (amount : BitVec 5) (ty : ShiftType) (rm : Reg) (s : State) : Result :=
  conditional cond s (dataProcShimm .cmp true rn rd amount ty rm s)

/-- CMP_shreg (R278; S is always 1, Rd ignored, R267). -/
def execCmpShreg (cond : Cond) (rn rd rs : Reg) (ty : ShiftType) (rm : Reg) (s : State) : Result :=
  conditional cond s (dataProcShreg .cmp true rn rd rs ty rm s)

/-- CMN_imm (R279; S is always 1, Rd ignored, R267). -/
def execCmnImm (cond : Cond) (rn rd : Reg) (rotate : BitVec 4) (imm : BitVec 8) (s : State) : Result :=
  conditional cond s (dataProcImm .cmn true rn rd rotate imm s)

/-- CMN_shimm (R279; S is always 1, Rd ignored, R267). -/
def execCmnShimm (cond : Cond) (rn rd : Reg) (amount : BitVec 5) (ty : ShiftType) (rm : Reg) (s : State) : Result :=
  conditional cond s (dataProcShimm .cmn true rn rd amount ty rm s)

/-- CMN_shreg (R279; S is always 1, Rd ignored, R267). -/
def execCmnShreg (cond : Cond) (rn rd rs : Reg) (ty : ShiftType) (rm : Reg) (s : State) : Result :=
  conditional cond s (dataProcShreg .cmn true rn rd rs ty rm s)

/-- ORR_imm (R280). -/
def execOrrImm (cond : Cond) (sf : Bool) (rn rd : Reg) (rotate : BitVec 4) (imm : BitVec 8) (s : State) : Result :=
  conditional cond s (dataProcImm .orr sf rn rd rotate imm s)

/-- ORR_shimm (R280). -/
def execOrrShimm (cond : Cond) (sf : Bool) (rn rd : Reg) (amount : BitVec 5) (ty : ShiftType) (rm : Reg) (s : State) : Result :=
  conditional cond s (dataProcShimm .orr sf rn rd amount ty rm s)

/-- ORR_shreg (R280). -/
def execOrrShreg (cond : Cond) (sf : Bool) (rn rd rs : Reg) (ty : ShiftType) (rm : Reg) (s : State) : Result :=
  conditional cond s (dataProcShreg .orr sf rn rd rs ty rm s)

/-- MOV_imm (R281; Rn ignored, R267). -/
def execMovImm (cond : Cond) (sf : Bool) (rn rd : Reg) (rotate : BitVec 4) (imm : BitVec 8) (s : State) : Result :=
  conditional cond s (dataProcImm .mov sf rn rd rotate imm s)

/-- MOV_shimm (R281; Rn ignored, R267). -/
def execMovShimm (cond : Cond) (sf : Bool) (rn rd : Reg) (amount : BitVec 5) (ty : ShiftType) (rm : Reg) (s : State) : Result :=
  conditional cond s (dataProcShimm .mov sf rn rd amount ty rm s)

/-- MOV_shreg (R281; Rn ignored, R267). -/
def execMovShreg (cond : Cond) (sf : Bool) (rn rd rs : Reg) (ty : ShiftType) (rm : Reg) (s : State) : Result :=
  conditional cond s (dataProcShreg .mov sf rn rd rs ty rm s)

/-- BIC_imm (R282). -/
def execBicImm (cond : Cond) (sf : Bool) (rn rd : Reg) (rotate : BitVec 4) (imm : BitVec 8) (s : State) : Result :=
  conditional cond s (dataProcImm .bic sf rn rd rotate imm s)

/-- BIC_shimm (R282). -/
def execBicShimm (cond : Cond) (sf : Bool) (rn rd : Reg) (amount : BitVec 5) (ty : ShiftType) (rm : Reg) (s : State) : Result :=
  conditional cond s (dataProcShimm .bic sf rn rd amount ty rm s)

/-- BIC_shreg (R282). -/
def execBicShreg (cond : Cond) (sf : Bool) (rn rd rs : Reg) (ty : ShiftType) (rm : Reg) (s : State) : Result :=
  conditional cond s (dataProcShreg .bic sf rn rd rs ty rm s)

/-- MVN_imm (R283; Rn ignored, R267). -/
def execMvnImm (cond : Cond) (sf : Bool) (rn rd : Reg) (rotate : BitVec 4) (imm : BitVec 8) (s : State) : Result :=
  conditional cond s (dataProcImm .mvn sf rn rd rotate imm s)

/-- MVN_shimm (R283; Rn ignored, R267). -/
def execMvnShimm (cond : Cond) (sf : Bool) (rn rd : Reg) (amount : BitVec 5) (ty : ShiftType) (rm : Reg) (s : State) : Result :=
  conditional cond s (dataProcShimm .mvn sf rn rd amount ty rm s)

/-- MVN_shreg (R283; Rn ignored, R267). -/
def execMvnShreg (cond : Cond) (sf : Bool) (rn rd rs : Reg) (ty : ShiftType) (rm : Reg) (s : State) : Result :=
  conditional cond s (dataProcShreg .mvn sf rn rd rs ty rm s)

end Sys2Proof.Machine
end

