-- ==== Sys2Proof/Machine/Halfword.lean ====
section
/-! DEFINITION. ARM halfword and signed data transfer (43_arm_load_store.md R331 to R335, offsets R247). -/

namespace Sys2Proof.Machine

/-- STRH_imm (R332, R331). -/
def execStrhImm (cond : Cond) (p u w : Bool) (rn rd : Reg) (imm : BitVec 8) (s : State) : Result :=
  conditional cond s (s.checked (rd = 15) .halfwordPC (storeSingle .half p u w rn rd (imm.zeroExtend 32) s))

/-- STRH_reg (R332, R331). -/
def execStrhReg (cond : Cond) (p u w : Bool) (rn rd rm : Reg) (s : State) : Result :=
  conditional cond s (s.checked (rd = 15) .halfwordPC
    (s.checked (rm = 15) .rmIsPC (storeSingle .half p u w rn rd (s.readReg rm) s)))

/-- LDRH_imm (R333, R331). -/
def execLdrhImm (cond : Cond) (p u w : Bool) (rn rd : Reg) (imm : BitVec 8) (s : State) : Result :=
  conditional cond s (s.checked (rd = 15) .halfwordPC (loadSingle .half p u w rn rd (imm.zeroExtend 32) s))

/-- LDRH_reg (R333, R331). -/
def execLdrhReg (cond : Cond) (p u w : Bool) (rn rd rm : Reg) (s : State) : Result :=
  conditional cond s (s.checked (rd = 15) .halfwordPC
    (s.checked (rm = 15) .rmIsPC (loadSingle .half p u w rn rd (s.readReg rm) s)))

/-- LDRSB_imm (R334, R331). -/
def execLdrsbImm (cond : Cond) (p u w : Bool) (rn rd : Reg) (imm : BitVec 8) (s : State) : Result :=
  conditional cond s (s.checked (rd = 15) .halfwordPC (loadSingle .signedByte p u w rn rd (imm.zeroExtend 32) s))

/-- LDRSB_reg (R334, R331). -/
def execLdrsbReg (cond : Cond) (p u w : Bool) (rn rd rm : Reg) (s : State) : Result :=
  conditional cond s (s.checked (rd = 15) .halfwordPC
    (s.checked (rm = 15) .rmIsPC (loadSingle .signedByte p u w rn rd (s.readReg rm) s)))

/-- LDRSH_imm (R335, R331). -/
def execLdrshImm (cond : Cond) (p u w : Bool) (rn rd : Reg) (imm : BitVec 8) (s : State) : Result :=
  conditional cond s (s.checked (rd = 15) .halfwordPC (loadSingle .signedHalf p u w rn rd (imm.zeroExtend 32) s))

/-- LDRSH_reg (R335, R331). -/
def execLdrshReg (cond : Cond) (p u w : Bool) (rn rd rm : Reg) (s : State) : Result :=
  conditional cond s (s.checked (rd = 15) .halfwordPC
    (s.checked (rm = 15) .rmIsPC (loadSingle .signedHalf p u w rn rd (s.readReg rm) s)))

end Sys2Proof.Machine
end

