-- ==== Sys2Proof/Machine/Multiply.lean ====
section
/-! DEFINITION. ARM multiply and multiply long (42_arm_multiply.md R300 to R308, timing R732, R733). -/

namespace Sys2Proof.Machine

/-- The write of a 32-bit product and its flags; `m` is the internal cycles (R301, R303, R304, R733). -/
def multiply (sf : Bool) (rd : Reg) (res m : Word) (s : State) : Result :=
  let t := ((s.chargeCode .S).internal m).writeReg rd res
  .next ((if sf then t.setNZ res else t).finish (rd = 15))

/-- The write of a 64-bit product, RdLo first and RdHi second, and its flags (R301, R302, R305 to R308, R733). -/
def multiplyLong (sf : Bool) (rdHi rdLo : Reg) (res : BitVec 64) (m : Word) (s : State) : Result :=
  let t := (((s.chargeCode .S).internal m).writeReg rdLo (res.extractLsb' 0 32)).writeReg rdHi (res.extractLsb' 32 32)
  .next ((if sf then t.setNZ64 res else t).finish (rdLo = 15 || rdHi = 15))

/-- The UNPREDICTABLE registers of the long forms (R302). -/
def longRegisters (rdHi rdLo rs rm : Reg) : Bool :=
  rdHi = rdLo || rdHi = rm || rdLo = rm || rdHi = 15 || rdLo = 15 || rm = 15 || rs = 15

/-- The 64-bit accumulator `RdHi : RdLo` (R306, R308). -/
def accumulator (rdHi rdLo : Reg) (s : State) : BitVec 64 := s.readReg rdHi ++ s.readReg rdLo

/-- MUL (R303, R300 to R302). -/
def execMul (cond : Cond) (sf : Bool) (rd rs rm : Reg) (s : State) : Result :=
  conditional cond s (s.checked (rd = rm || rd = 15 || rm = 15 || rs = 15) .mulRegisters
    (multiply sf rd (s.readReg rm * s.readReg rs) (multiplierCycles (s.readReg rs)) s))

/-- MLA (R304, R300 to R302). -/
def execMla (cond : Cond) (sf : Bool) (rd rn rs rm : Reg) (s : State) : Result :=
  conditional cond s (s.checked (rd = rm || rd = 15 || rm = 15 || rs = 15 || rn = 15) .mulRegisters
    (multiply sf rd (s.readReg rm * s.readReg rs + s.readReg rn) (multiplierCycles (s.readReg rs) + 1) s))

/-- UMULL (R305, R300 to R302). -/
def execUmull (cond : Cond) (sf : Bool) (rdHi rdLo rs rm : Reg) (s : State) : Result :=
  conditional cond s (s.checked (longRegisters rdHi rdLo rs rm) .mulRegisters
    (multiplyLong sf rdHi rdLo ((s.readReg rm).zeroExtend 64 * (s.readReg rs).zeroExtend 64)
      (multiplierCyclesUnsigned (s.readReg rs) + 1) s))

/-- UMLAL (R306, R300 to R302). -/
def execUmlal (cond : Cond) (sf : Bool) (rdHi rdLo rs rm : Reg) (s : State) : Result :=
  conditional cond s (s.checked (longRegisters rdHi rdLo rs rm) .mulRegisters
    (multiplyLong sf rdHi rdLo ((s.readReg rm).zeroExtend 64 * (s.readReg rs).zeroExtend 64 + accumulator rdHi rdLo s)
      (multiplierCyclesUnsigned (s.readReg rs) + 2) s))

/-- SMULL (R307, R300 to R302). -/
def execSmull (cond : Cond) (sf : Bool) (rdHi rdLo rs rm : Reg) (s : State) : Result :=
  conditional cond s (s.checked (longRegisters rdHi rdLo rs rm) .mulRegisters
    (multiplyLong sf rdHi rdLo ((s.readReg rm).signExtend 64 * (s.readReg rs).signExtend 64)
      (multiplierCycles (s.readReg rs) + 1) s))

/-- SMLAL (R308, R300 to R302). -/
def execSmlal (cond : Cond) (sf : Bool) (rdHi rdLo rs rm : Reg) (s : State) : Result :=
  conditional cond s (s.checked (longRegisters rdHi rdLo rs rm) .mulRegisters
    (multiplyLong sf rdHi rdLo ((s.readReg rm).signExtend 64 * (s.readReg rs).signExtend 64 + accumulator rdHi rdLo s)
      (multiplierCycles (s.readReg rs) + 2) s))

end Sys2Proof.Machine
end

