-- ==== Sys2Proof/Machine/PsrTransfer.lean ====
section
/-! DEFINITION. MRS and MSR (41_arm_data_processing.md R284 to R288, timing R731). -/

namespace Sys2Proof.Machine

/-- MRS: the CPSR or the SPSR of the current mode into a register (R284). -/
def moveFromPsr (spsr : Bool) (rd : Reg) (s : State) : Result :=
  match if spsr then s.spsr else some s.readCpsr with
  | none => .fault .spsrUnavailable
  | some v => s.checked (rd = 15) .mrsToPC (.next (((s.chargeCode .S).writeReg rd v).finish (rd = 15)))

/-- The CPSR MSR would leave: the flags byte, and in a privileged mode the control byte without T (R286, R287). -/
def msrCpsr (p v : Word) (mask : PsrMask) (privileged : Bool) : Word :=
  let p1 := if mask.f then psrWithFlags p (psrN v) (psrZ v) (psrC v) (psrV v) else p
  if mask.c && privileged then psrWithControl p1 (psrI v) (psrF v) (psrT p) (psrM v) else p1

/-- The SPSR MSR leaves: the flags byte and the whole control byte (R286, R288). -/
def msrSpsr (p v : Word) (mask : PsrMask) : Word :=
  let p1 := if mask.f then psrWithFlags p (psrN v) (psrZ v) (psrC v) (psrV v) else p
  if mask.c then psrWithControl p1 (psrI v) (psrF v) (psrT v) (psrM v) else p1

/-- MSR to the CPSR; an operand that is R15 stops first, since the new mode comes from it (R285, R287, assumption 7). -/
def moveToCpsr (mask : PsrMask) (fromPc : Bool) (v : Word) (s : State) : Result :=
  let p := msrCpsr s.readCpsr v mask s.mode.privileged
  s.checked fromPc .msrFromPC
    (match Mode.ofBits? (psrM p) with
     | none => .fault (.invalidMode (psrM p))
     | some _ => .next (((s.chargeCode .S).writeCpsr p).finish false))

/-- MSR to the SPSR of the current mode: a missing SPSR stops before an operand that is R15 (R288). -/
def moveToSpsr (mask : PsrMask) (fromPc : Bool) (v : Word) (s : State) : Result :=
  match s.spsr with
  | none => .fault .spsrUnavailable
  | some p => s.checked fromPc .msrFromPC (.next (((s.chargeCode .S).writeSpsrOf s.mode (msrSpsr p v mask)).finish false))

/-- MSR of a value; `fromPc` says that it comes from R15 (R285). -/
def moveToPsr (spsr : Bool) (mask : PsrMask) (fromPc : Bool) (v : Word) (s : State) : Result :=
  if spsr then moveToSpsr mask fromPc v s else moveToCpsr mask fromPc v s

/-- MRS (R284, R62). -/
def execMrs (cond : Cond) (spsr : Bool) (rd : Reg) (s : State) : Result :=
  conditional cond s (moveFromPsr spsr rd s)

/-- MSR_reg (R285 to R288). -/
def execMsrReg (cond : Cond) (spsr : Bool) (mask : PsrMask) (rm : Reg) (s : State) : Result :=
  conditional cond s (moveToPsr spsr mask (rm = 15) (s.readReg rm) s)

/-- MSR_imm (R285 to R288). -/
def execMsrImm (cond : Cond) (spsr : Bool) (mask : PsrMask) (rotate : BitVec 4) (imm : BitVec 8) (s : State) : Result :=
  conditional cond s (moveToPsr spsr mask false (rotatedImm rotate imm) s)

end Sys2Proof.Machine
end

