-- ==== Sys2Proof/Machine/Swap.lean ====
section
/-! DEFINITION. Single data swap (43_arm_load_store.md R360, R361, timing R738). -/

namespace Sys2Proof.Machine

/-- The read, then the write of the same location, then Rd (R119, R360, R361, R738). -/
def swap (lk : LoadKind) (sk : StoreKind) (rn rd rm : Reg) (s : State) : Result :=
  let addr := s.readReg rn
  s.checked (rd = 15 || rm = 15 || rn = 15 || rn = rd || rn = rm) .swapRegisters
    (s.checkedPrefetch (s.inPrefetch (alignTo sk.width addr) sk.bytes)
      (let old := loadValue lk s addr
       let t := ((s.chargeCode .S).charge addr lk.width .N).charge addr sk.width .N
       let t1 := (storeAt sk addr (s.readReg rm) t).internal 1
       .next ((t1.writeReg rd old).finish (rd = 15))))

/-- SWP (R360). -/
def execSwp (cond : Cond) (rn rd rm : Reg) (s : State) : Result :=
  conditional cond s (swap .word .word rn rd rm s)

/-- SWPB (R361). -/
def execSwpb (cond : Cond) (rn rd rm : Reg) (s : State) : Result :=
  conditional cond s (swap .byte .byte rn rd rm s)

end Sys2Proof.Machine
end

