-- ==== Sys2Proof/Machine/ThumbAlu.lean ====
section
/-! DEFINITION. Thumb formats 1 to 4 (45_thumb_alu.md R400 to R427, timing R742). -/

namespace Sys2Proof.Machine

/-- An operand2 no shift made: its carry is the C in force (R225, R412). -/
def plain (v : Word) (s : State) : Shifted := { value := v, carry := s.flagC }

/-- A Thumb operation of formats 1 to 4: its ARM equivalent with S = 1 (R400). -/
def thumbAlu (op : AluOp) (rd : LoReg) (a : Word) (o : Shifted) (extra : Word) (s : State) : Result :=
  dataProcess op true (lo rd) a o extra s

/-- T_LSL_imm (R401). -/
def execTLslImm (imm : BitVec 5) (rs rd : LoReg) (s : State) : Result :=
  thumbAlu .mov rd 0 (shiftImm .lsl imm (s.readReg (lo rs)) s.flagC) 0 s

/-- T_LSR_imm (R402). -/
def execTLsrImm (imm : BitVec 5) (rs rd : LoReg) (s : State) : Result :=
  thumbAlu .mov rd 0 (shiftImm .lsr imm (s.readReg (lo rs)) s.flagC) 0 s

/-- T_ASR_imm (R403). -/
def execTAsrImm (imm : BitVec 5) (rs rd : LoReg) (s : State) : Result :=
  thumbAlu .mov rd 0 (shiftImm .asr imm (s.readReg (lo rs)) s.flagC) 0 s

/-- T_ADD_reg (R404). -/
def execTAddReg (rn rs rd : LoReg) (s : State) : Result :=
  thumbAlu .add rd (s.readReg (lo rs)) (plain (s.readReg (lo rn)) s) 0 s

/-- T_SUB_reg (R405). -/
def execTSubReg (rn rs rd : LoReg) (s : State) : Result :=
  thumbAlu .sub rd (s.readReg (lo rs)) (plain (s.readReg (lo rn)) s) 0 s

/-- T_ADD_imm3 (R406). -/
def execTAddImm3 (imm : BitVec 3) (rs rd : LoReg) (s : State) : Result :=
  thumbAlu .add rd (s.readReg (lo rs)) (plain (imm.zeroExtend 32) s) 0 s

/-- T_SUB_imm3 (R407). -/
def execTSubImm3 (imm : BitVec 3) (rs rd : LoReg) (s : State) : Result :=
  thumbAlu .sub rd (s.readReg (lo rs)) (plain (imm.zeroExtend 32) s) 0 s

/-- T_MOV_imm (R408). -/
def execTMovImm (rd : LoReg) (imm : BitVec 8) (s : State) : Result :=
  thumbAlu .mov rd 0 (plain (imm.zeroExtend 32) s) 0 s

/-- T_CMP_imm (R409). -/
def execTCmpImm (rd : LoReg) (imm : BitVec 8) (s : State) : Result :=
  thumbAlu .cmp rd (s.readReg (lo rd)) (plain (imm.zeroExtend 32) s) 0 s

/-- T_ADD_imm8 (R410). -/
def execTAddImm8 (rd : LoReg) (imm : BitVec 8) (s : State) : Result :=
  thumbAlu .add rd (s.readReg (lo rd)) (plain (imm.zeroExtend 32) s) 0 s

/-- T_SUB_imm8 (R411). -/
def execTSubImm8 (rd : LoReg) (imm : BitVec 8) (s : State) : Result :=
  thumbAlu .sub rd (s.readReg (lo rd)) (plain (imm.zeroExtend 32) s) 0 s

/-- T_AND (R412). -/
def execTAnd (rs rd : LoReg) (s : State) : Result :=
  thumbAlu .and rd (s.readReg (lo rd)) (plain (s.readReg (lo rs)) s) 0 s

/-- T_EOR (R413). -/
def execTEor (rs rd : LoReg) (s : State) : Result :=
  thumbAlu .eor rd (s.readReg (lo rd)) (plain (s.readReg (lo rs)) s) 0 s

/-- T_LSL_reg (R414). -/
def execTLslReg (rs rd : LoReg) (s : State) : Result :=
  thumbAlu .mov rd 0
    (shiftReg .lsl ((s.readReg (lo rs)).extractLsb' 0 8) (s.readReg (lo rd)) s.flagC) 1 s

/-- T_LSR_reg (R415). -/
def execTLsrReg (rs rd : LoReg) (s : State) : Result :=
  thumbAlu .mov rd 0
    (shiftReg .lsr ((s.readReg (lo rs)).extractLsb' 0 8) (s.readReg (lo rd)) s.flagC) 1 s

/-- T_ASR_reg (R416). -/
def execTAsrReg (rs rd : LoReg) (s : State) : Result :=
  thumbAlu .mov rd 0
    (shiftReg .asr ((s.readReg (lo rs)).extractLsb' 0 8) (s.readReg (lo rd)) s.flagC) 1 s

/-- T_ADC (R417). -/
def execTAdc (rs rd : LoReg) (s : State) : Result :=
  thumbAlu .adc rd (s.readReg (lo rd)) (plain (s.readReg (lo rs)) s) 0 s

/-- T_SBC (R418). -/
def execTSbc (rs rd : LoReg) (s : State) : Result :=
  thumbAlu .sbc rd (s.readReg (lo rd)) (plain (s.readReg (lo rs)) s) 0 s

/-- T_ROR (R419). -/
def execTRor (rs rd : LoReg) (s : State) : Result :=
  thumbAlu .mov rd 0
    (shiftReg .ror ((s.readReg (lo rs)).extractLsb' 0 8) (s.readReg (lo rd)) s.flagC) 1 s

/-- T_TST (R420). -/
def execTTst (rs rd : LoReg) (s : State) : Result :=
  thumbAlu .tst rd (s.readReg (lo rd)) (plain (s.readReg (lo rs)) s) 0 s

/-- T_NEG (R421). -/
def execTNeg (rs rd : LoReg) (s : State) : Result :=
  thumbAlu .rsb rd (s.readReg (lo rs)) (plain 0 s) 0 s

/-- T_CMP_reg (R422). -/
def execTCmpReg (rs rd : LoReg) (s : State) : Result :=
  thumbAlu .cmp rd (s.readReg (lo rd)) (plain (s.readReg (lo rs)) s) 0 s

/-- T_CMN (R423). -/
def execTCmn (rs rd : LoReg) (s : State) : Result :=
  thumbAlu .cmn rd (s.readReg (lo rd)) (plain (s.readReg (lo rs)) s) 0 s

/-- T_ORR (R424). -/
def execTOrr (rs rd : LoReg) (s : State) : Result :=
  thumbAlu .orr rd (s.readReg (lo rd)) (plain (s.readReg (lo rs)) s) 0 s

/-- T_MUL (R425). -/
def execTMul (rs rd : LoReg) (s : State) : Result :=
  s.checked (rd = rs) .mulRegisters
    (multiply true (lo rd) (s.readReg (lo rs) * s.readReg (lo rd)) (multiplierCycles (s.readReg (lo rd))) s)

/-- T_BIC (R426). -/
def execTBic (rs rd : LoReg) (s : State) : Result :=
  thumbAlu .bic rd (s.readReg (lo rd)) (plain (s.readReg (lo rs)) s) 0 s

/-- T_MVN (R427). -/
def execTMvn (rs rd : LoReg) (s : State) : Result :=
  thumbAlu .mvn rd 0 (plain (s.readReg (lo rs)) s) 0 s

end Sys2Proof.Machine
end

