-- ==== Sys2Proof/Machine/ThumbBranch.lean ====
section
/-! DEFINITION. Thumb formats 16 to 19 (46_thumb_memory_branch.md R478 to R487, timing R739, R741, R743, R744). -/

namespace Sys2Proof.Machine



/-- T_Bcond (R478, R221). -/
def execTBcond (cond : Cond) (imm : BitVec 8) (s : State) : Result :=
  conditional cond s (branchTo (s.pc + 4 + (imm ++ 0#1).signExtend 32) s)

/-- T_SWI (R479, R610, R611; the comment field is ignored). -/
def execTSwi (_comment : BitVec 8) (s : State) : Result :=
  softwareInterrupt s

/-- T_B (R480). -/
def execTB (imm : BitVec 11) (s : State) : Result :=
  branchTo (s.pc + 4 + (imm ++ 0#1).signExtend 32) s

/-- T_BL_hi (R486, R481, R743). -/
def execTBlHi (imm : BitVec 11) (s : State) : Result :=
  .next (((s.chargeCode .S).writeReg 14 (s.pc + 4 + (imm ++ 0#12).signExtend 32)).finish false)

/-- T_BL_lo (R487, R481, R743). -/
def execTBlLo (imm : BitVec 11) (s : State) : Result :=
  branchTo (s.readReg 14 + (imm ++ 0#1).zeroExtend 32) (s.writeReg 14 ((s.pc + 2) ||| 1))

end Sys2Proof.Machine
end

