-- ==== Sys2Proof/Machine/ThumbHi.lean ====
section
/-! DEFINITION. Thumb format 5 (45_thumb_alu.md R428 to R431, R440, timing R740, R742). -/

namespace Sys2Proof.Machine

/-- ADD, CMP and MOV of format 5: their ARM equivalents, setting flags for CMP alone (R400, R428 to R430). -/
def thumbHi (op : AluOp) (sf : Bool) (rd rs : Reg) (s : State) : Result :=
  dataProcess op sf rd (s.readReg rd) { value := s.readReg rs, carry := s.flagC } 0 s

/-- T_ADD_hi (R428, R440). -/
def execTAddHi (h1 h2 : Bool) (rs rd : LoReg) (s : State) : Result :=
  s.checked (!h1 && !h2) .thumbHiRegisters
    (thumbHi .add false (hiReg h1 rd) (hiReg h2 rs) s)

/-- T_CMP_hi (R429, R440). With Rd = R15 it writes no R15 and is charged no refill (R730, R742, assumption 22). -/
def execTCmpHi (h1 h2 : Bool) (rs rd : LoReg) (s : State) : Result :=
  s.checked (!h1 && !h2) .thumbHiRegisters
    (thumbHi .cmp true (hiReg h1 rd) (hiReg h2 rs) s)

/-- T_MOV_hi (R430, R440). -/
def execTMovHi (h1 h2 : Bool) (rs rd : LoReg) (s : State) : Result :=
  s.checked (!h1 && !h2) .thumbHiRegisters
    (thumbHi .mov false (hiReg h1 rd) (hiReg h2 rs) s)

/-- T_BX (R431, R440). -/
def execTBx (h1 h2 : Bool) (rs _rd : LoReg) (s : State) : Result :=
  s.checked h1 .thumbHiRegisters (branchExchange (s.readReg (hiReg h2 rs)) s)

end Sys2Proof.Machine
end

