-- ==== Sys2Proof/Machine/ThumbMem.lean ====
section
/-! DEFINITION. Thumb formats 6 to 13 (46_thumb_memory_branch.md R450 to R472, timing R734, R735, R742). -/

namespace Sys2Proof.Machine

/-- The Thumb PC with bit 1 cleared, the base of the PC-relative forms (R451). -/
def thumbPcBase (s : State) : Word := alignWord (s.pc + 4)

/-- An unsigned offset scaled by a power of two. -/
def scaled {n : Nat} (imm : BitVec n) (sh : Nat) : Word := imm.zeroExtend 32 <<< sh

/-- An address computation into a register: no flag changes (R469 to R472, R742). -/
def writeAddress (rd : Reg) (v : Word) (s : State) : Result := .next (((s.chargeCode .S).writeReg rd v).finish false)

/-- T_LDR_pc (R452). -/
def execTLdrPc (rd : LoReg) (imm : BitVec 8) (s : State) : Result :=
  loadFrom .word (lo rd) (thumbPcBase s + scaled imm 2) none s

/-- T_STR_reg (R453). -/
def execTStrReg (ro rb rd : LoReg) (s : State) : Result :=
  storeTo .word (s.readReg (lo rb) + s.readReg (lo ro)) (s.readReg (lo rd)) none s

/-- T_STRB_reg (R454). -/
def execTStrbReg (ro rb rd : LoReg) (s : State) : Result :=
  storeTo .byte (s.readReg (lo rb) + s.readReg (lo ro)) (s.readReg (lo rd)) none s

/-- T_LDR_reg (R455). -/
def execTLdrReg (ro rb rd : LoReg) (s : State) : Result :=
  loadFrom .word (lo rd) (s.readReg (lo rb) + s.readReg (lo ro)) none s

/-- T_LDRB_reg (R456). -/
def execTLdrbReg (ro rb rd : LoReg) (s : State) : Result :=
  loadFrom .byte (lo rd) (s.readReg (lo rb) + s.readReg (lo ro)) none s

/-- T_STRH_reg (R457). -/
def execTStrhReg (ro rb rd : LoReg) (s : State) : Result :=
  storeTo .half (s.readReg (lo rb) + s.readReg (lo ro)) (s.readReg (lo rd)) none s

/-- T_LDSB (R458). -/
def execTLdsb (ro rb rd : LoReg) (s : State) : Result :=
  loadFrom .signedByte (lo rd) (s.readReg (lo rb) + s.readReg (lo ro)) none s

/-- T_LDRH_reg (R459). -/
def execTLdrhReg (ro rb rd : LoReg) (s : State) : Result :=
  loadFrom .half (lo rd) (s.readReg (lo rb) + s.readReg (lo ro)) none s

/-- T_LDSH (R460). -/
def execTLdsh (ro rb rd : LoReg) (s : State) : Result :=
  loadFrom .signedHalf (lo rd) (s.readReg (lo rb) + s.readReg (lo ro)) none s

/-- T_STR_imm (R461). -/
def execTStrImm (imm : BitVec 5) (rb rd : LoReg) (s : State) : Result :=
  storeTo .word (s.readReg (lo rb) + scaled imm 2) (s.readReg (lo rd)) none s

/-- T_LDR_imm (R462). -/
def execTLdrImm (imm : BitVec 5) (rb rd : LoReg) (s : State) : Result :=
  loadFrom .word (lo rd) (s.readReg (lo rb) + scaled imm 2) none s

/-- T_STRB_imm (R463). -/
def execTStrbImm (imm : BitVec 5) (rb rd : LoReg) (s : State) : Result :=
  storeTo .byte (s.readReg (lo rb) + scaled imm 0) (s.readReg (lo rd)) none s

/-- T_LDRB_imm (R464). -/
def execTLdrbImm (imm : BitVec 5) (rb rd : LoReg) (s : State) : Result :=
  loadFrom .byte (lo rd) (s.readReg (lo rb) + scaled imm 0) none s

/-- T_STRH_imm (R465). -/
def execTStrhImm (imm : BitVec 5) (rb rd : LoReg) (s : State) : Result :=
  storeTo .half (s.readReg (lo rb) + scaled imm 1) (s.readReg (lo rd)) none s

/-- T_LDRH_imm (R466). -/
def execTLdrhImm (imm : BitVec 5) (rb rd : LoReg) (s : State) : Result :=
  loadFrom .half (lo rd) (s.readReg (lo rb) + scaled imm 1) none s

/-- T_STR_sp (R467). -/
def execTStrSp (rd : LoReg) (imm : BitVec 8) (s : State) : Result :=
  storeTo .word (s.readReg 13 + scaled imm 2) (s.readReg (lo rd)) none s

/-- T_LDR_sp (R468). -/
def execTLdrSp (rd : LoReg) (imm : BitVec 8) (s : State) : Result :=
  loadFrom .word (lo rd) (s.readReg 13 + scaled imm 2) none s

/-- T_ADD_pc (R469, R451). -/
def execTAddPc (rd : LoReg) (imm : BitVec 8) (s : State) : Result :=
  writeAddress (lo rd) (thumbPcBase s + scaled imm 2) s

/-- T_ADD_sp (R470). -/
def execTAddSp (rd : LoReg) (imm : BitVec 8) (s : State) : Result :=
  writeAddress (lo rd) (s.readReg 13 + scaled imm 2) s

/-- T_ADD_sp_imm (R471). -/
def execTAddSpImm (imm : BitVec 7) (s : State) : Result :=
  writeAddress 13 (s.readReg 13 + scaled imm 2) s

/-- T_SUB_sp_imm (R472). -/
def execTSubSpImm (imm : BitVec 7) (s : State) : Result :=
  writeAddress 13 (s.readReg 13 - scaled imm 2) s

end Sys2Proof.Machine
end

