-- ==== Sys2Proof/Machine/ThumbStack.lean ====
section
/-! DEFINITION. Thumb formats 14 and 15 (46_thumb_memory_branch.md R473 to R477, timing R736, R737). -/

namespace Sys2Proof.Machine

/-- The register list of PUSH and POP: R adds R14 or R15 to the low registers (R473, R474). -/
def stackList (r : Bool) (n : Nat) (list : BitVec 8) : BitVec 16 :=
  list.zeroExtend 16 ||| ((BitVec.ofBool r).zeroExtend 16 <<< n)

/-- T_PUSH (R473, STMDB R13!). -/
def execTPush (lr : Bool) (list : BitVec 8) (s : State) : Result :=
  blockStore true false false true 13 (stackList lr 14 list) s

/-- T_POP (R474, LDMIA R13!). -/
def execTPop (pc : Bool) (list : BitVec 8) (s : State) : Result :=
  blockLoad false true false true 13 (stackList pc 15 list) s

/-- T_STMIA (R475, STMIA Rb!). -/
def execTStmia (rb : LoReg) (list : BitVec 8) (s : State) : Result :=
  blockStore false true false true (lo rb) (list.zeroExtend 16) s

/-- T_LDMIA (R476, LDMIA Rb!). -/
def execTLdmia (rb : LoReg) (list : BitVec 8) (s : State) : Result :=
  blockLoad false true false true (lo rb) (list.zeroExtend 16) s

end Sys2Proof.Machine
end

