-- ==== Sys2Proof/Machine/Dispatch.lean ====
section
/-! DEFINITION. One arm for every constructor of Instr, each a direct call of its meaning. -/

namespace Sys2Proof.Machine

/-- The meaning of an instruction on a state: its condition, its effect, and the advance of the pc (R12, R221, R261). -/
def exec (i : Instr) (s : State) : Host.Outcome State Fault Refusal :=
  match i with
  | .andImm cond sf rn rd rotate imm => Sys2Proof.Machine.execAndImm cond sf rn rd rotate imm s
  | .andShimm cond sf rn rd amount ty rm => Sys2Proof.Machine.execAndShimm cond sf rn rd amount ty rm s
  | .andShreg cond sf rn rd rs ty rm => Sys2Proof.Machine.execAndShreg cond sf rn rd rs ty rm s
  | .eorImm cond sf rn rd rotate imm => Sys2Proof.Machine.execEorImm cond sf rn rd rotate imm s
  | .eorShimm cond sf rn rd amount ty rm => Sys2Proof.Machine.execEorShimm cond sf rn rd amount ty rm s
  | .eorShreg cond sf rn rd rs ty rm => Sys2Proof.Machine.execEorShreg cond sf rn rd rs ty rm s
  | .subImm cond sf rn rd rotate imm => Sys2Proof.Machine.execSubImm cond sf rn rd rotate imm s
  | .subShimm cond sf rn rd amount ty rm => Sys2Proof.Machine.execSubShimm cond sf rn rd amount ty rm s
  | .subShreg cond sf rn rd rs ty rm => Sys2Proof.Machine.execSubShreg cond sf rn rd rs ty rm s
  | .rsbImm cond sf rn rd rotate imm => Sys2Proof.Machine.execRsbImm cond sf rn rd rotate imm s
  | .rsbShimm cond sf rn rd amount ty rm => Sys2Proof.Machine.execRsbShimm cond sf rn rd amount ty rm s
  | .rsbShreg cond sf rn rd rs ty rm => Sys2Proof.Machine.execRsbShreg cond sf rn rd rs ty rm s
  | .addImm cond sf rn rd rotate imm => Sys2Proof.Machine.execAddImm cond sf rn rd rotate imm s
  | .addShimm cond sf rn rd amount ty rm => Sys2Proof.Machine.execAddShimm cond sf rn rd amount ty rm s
  | .addShreg cond sf rn rd rs ty rm => Sys2Proof.Machine.execAddShreg cond sf rn rd rs ty rm s
  | .adcImm cond sf rn rd rotate imm => Sys2Proof.Machine.execAdcImm cond sf rn rd rotate imm s
  | .adcShimm cond sf rn rd amount ty rm => Sys2Proof.Machine.execAdcShimm cond sf rn rd amount ty rm s
  | .adcShreg cond sf rn rd rs ty rm => Sys2Proof.Machine.execAdcShreg cond sf rn rd rs ty rm s
  | .sbcImm cond sf rn rd rotate imm => Sys2Proof.Machine.execSbcImm cond sf rn rd rotate imm s
  | .sbcShimm cond sf rn rd amount ty rm => Sys2Proof.Machine.execSbcShimm cond sf rn rd amount ty rm s
  | .sbcShreg cond sf rn rd rs ty rm => Sys2Proof.Machine.execSbcShreg cond sf rn rd rs ty rm s
  | .rscImm cond sf rn rd rotate imm => Sys2Proof.Machine.execRscImm cond sf rn rd rotate imm s
  | .rscShimm cond sf rn rd amount ty rm => Sys2Proof.Machine.execRscShimm cond sf rn rd amount ty rm s
  | .rscShreg cond sf rn rd rs ty rm => Sys2Proof.Machine.execRscShreg cond sf rn rd rs ty rm s
  | .tstImm cond rn rd rotate imm => Sys2Proof.Machine.execTstImm cond rn rd rotate imm s
  | .tstShimm cond rn rd amount ty rm => Sys2Proof.Machine.execTstShimm cond rn rd amount ty rm s
  | .tstShreg cond rn rd rs ty rm => Sys2Proof.Machine.execTstShreg cond rn rd rs ty rm s
  | .teqImm cond rn rd rotate imm => Sys2Proof.Machine.execTeqImm cond rn rd rotate imm s
  | .teqShimm cond rn rd amount ty rm => Sys2Proof.Machine.execTeqShimm cond rn rd amount ty rm s
  | .teqShreg cond rn rd rs ty rm => Sys2Proof.Machine.execTeqShreg cond rn rd rs ty rm s
  | .cmpImm cond rn rd rotate imm => Sys2Proof.Machine.execCmpImm cond rn rd rotate imm s
  | .cmpShimm cond rn rd amount ty rm => Sys2Proof.Machine.execCmpShimm cond rn rd amount ty rm s
  | .cmpShreg cond rn rd rs ty rm => Sys2Proof.Machine.execCmpShreg cond rn rd rs ty rm s
  | .cmnImm cond rn rd rotate imm => Sys2Proof.Machine.execCmnImm cond rn rd rotate imm s
  | .cmnShimm cond rn rd amount ty rm => Sys2Proof.Machine.execCmnShimm cond rn rd amount ty rm s
  | .cmnShreg cond rn rd rs ty rm => Sys2Proof.Machine.execCmnShreg cond rn rd rs ty rm s
  | .orrImm cond sf rn rd rotate imm => Sys2Proof.Machine.execOrrImm cond sf rn rd rotate imm s
  | .orrShimm cond sf rn rd amount ty rm => Sys2Proof.Machine.execOrrShimm cond sf rn rd amount ty rm s
  | .orrShreg cond sf rn rd rs ty rm => Sys2Proof.Machine.execOrrShreg cond sf rn rd rs ty rm s
  | .movImm cond sf rn rd rotate imm => Sys2Proof.Machine.execMovImm cond sf rn rd rotate imm s
  | .movShimm cond sf rn rd amount ty rm => Sys2Proof.Machine.execMovShimm cond sf rn rd amount ty rm s
  | .movShreg cond sf rn rd rs ty rm => Sys2Proof.Machine.execMovShreg cond sf rn rd rs ty rm s
  | .bicImm cond sf rn rd rotate imm => Sys2Proof.Machine.execBicImm cond sf rn rd rotate imm s
  | .bicShimm cond sf rn rd amount ty rm => Sys2Proof.Machine.execBicShimm cond sf rn rd amount ty rm s
  | .bicShreg cond sf rn rd rs ty rm => Sys2Proof.Machine.execBicShreg cond sf rn rd rs ty rm s
  | .mvnImm cond sf rn rd rotate imm => Sys2Proof.Machine.execMvnImm cond sf rn rd rotate imm s
  | .mvnShimm cond sf rn rd amount ty rm => Sys2Proof.Machine.execMvnShimm cond sf rn rd amount ty rm s
  | .mvnShreg cond sf rn rd rs ty rm => Sys2Proof.Machine.execMvnShreg cond sf rn rd rs ty rm s
  | .mrs cond spsr rd => Sys2Proof.Machine.execMrs cond spsr rd s
  | .msrReg cond spsr mask rm => Sys2Proof.Machine.execMsrReg cond spsr mask rm s
  | .msrImm cond spsr mask rotate imm => Sys2Proof.Machine.execMsrImm cond spsr mask rotate imm s
  | .mul cond sf rd rs rm => Sys2Proof.Machine.execMul cond sf rd rs rm s
  | .mla cond sf rd rn rs rm => Sys2Proof.Machine.execMla cond sf rd rn rs rm s
  | .umull cond sf rdHi rdLo rs rm => Sys2Proof.Machine.execUmull cond sf rdHi rdLo rs rm s
  | .umlal cond sf rdHi rdLo rs rm => Sys2Proof.Machine.execUmlal cond sf rdHi rdLo rs rm s
  | .smull cond sf rdHi rdLo rs rm => Sys2Proof.Machine.execSmull cond sf rdHi rdLo rs rm s
  | .smlal cond sf rdHi rdLo rs rm => Sys2Proof.Machine.execSmlal cond sf rdHi rdLo rs rm s
  | .swp cond rn rd rm => Sys2Proof.Machine.execSwp cond rn rd rm s
  | .swpb cond rn rd rm => Sys2Proof.Machine.execSwpb cond rn rd rm s
  | .bx cond rm => Sys2Proof.Machine.execBx cond rm s
  | .strImm cond p u w rn rd imm => Sys2Proof.Machine.execStrImm cond p u w rn rd imm s
  | .strReg cond p u w rn rd amount ty rm => Sys2Proof.Machine.execStrReg cond p u w rn rd amount ty rm s
  | .strtImm cond u rn rd imm => Sys2Proof.Machine.execStrtImm cond u rn rd imm s
  | .strtReg cond u rn rd amount ty rm => Sys2Proof.Machine.execStrtReg cond u rn rd amount ty rm s
  | .ldrImm cond p u w rn rd imm => Sys2Proof.Machine.execLdrImm cond p u w rn rd imm s
  | .ldrReg cond p u w rn rd amount ty rm => Sys2Proof.Machine.execLdrReg cond p u w rn rd amount ty rm s
  | .ldrtImm cond u rn rd imm => Sys2Proof.Machine.execLdrtImm cond u rn rd imm s
  | .ldrtReg cond u rn rd amount ty rm => Sys2Proof.Machine.execLdrtReg cond u rn rd amount ty rm s
  | .strbImm cond p u w rn rd imm => Sys2Proof.Machine.execStrbImm cond p u w rn rd imm s
  | .strbReg cond p u w rn rd amount ty rm => Sys2Proof.Machine.execStrbReg cond p u w rn rd amount ty rm s
  | .strbtImm cond u rn rd imm => Sys2Proof.Machine.execStrbtImm cond u rn rd imm s
  | .strbtReg cond u rn rd amount ty rm => Sys2Proof.Machine.execStrbtReg cond u rn rd amount ty rm s
  | .ldrbImm cond p u w rn rd imm => Sys2Proof.Machine.execLdrbImm cond p u w rn rd imm s
  | .ldrbReg cond p u w rn rd amount ty rm => Sys2Proof.Machine.execLdrbReg cond p u w rn rd amount ty rm s
  | .ldrbtImm cond u rn rd imm => Sys2Proof.Machine.execLdrbtImm cond u rn rd imm s
  | .ldrbtReg cond u rn rd amount ty rm => Sys2Proof.Machine.execLdrbtReg cond u rn rd amount ty rm s
  | .strhImm cond p u w rn rd imm => Sys2Proof.Machine.execStrhImm cond p u w rn rd imm s
  | .strhReg cond p u w rn rd rm => Sys2Proof.Machine.execStrhReg cond p u w rn rd rm s
  | .ldrhImm cond p u w rn rd imm => Sys2Proof.Machine.execLdrhImm cond p u w rn rd imm s
  | .ldrhReg cond p u w rn rd rm => Sys2Proof.Machine.execLdrhReg cond p u w rn rd rm s
  | .ldrsbImm cond p u w rn rd imm => Sys2Proof.Machine.execLdrsbImm cond p u w rn rd imm s
  | .ldrsbReg cond p u w rn rd rm => Sys2Proof.Machine.execLdrsbReg cond p u w rn rd rm s
  | .ldrshImm cond p u w rn rd imm => Sys2Proof.Machine.execLdrshImm cond p u w rn rd imm s
  | .ldrshReg cond p u w rn rd rm => Sys2Proof.Machine.execLdrshReg cond p u w rn rd rm s
  | .ldmia cond ub w rn list => Sys2Proof.Machine.execLdmia cond ub w rn list s
  | .stmia cond ub w rn list => Sys2Proof.Machine.execStmia cond ub w rn list s
  | .ldmib cond ub w rn list => Sys2Proof.Machine.execLdmib cond ub w rn list s
  | .stmib cond ub w rn list => Sys2Proof.Machine.execStmib cond ub w rn list s
  | .ldmda cond ub w rn list => Sys2Proof.Machine.execLdmda cond ub w rn list s
  | .stmda cond ub w rn list => Sys2Proof.Machine.execStmda cond ub w rn list s
  | .ldmdb cond ub w rn list => Sys2Proof.Machine.execLdmdb cond ub w rn list s
  | .stmdb cond ub w rn list => Sys2Proof.Machine.execStmdb cond ub w rn list s
  | .b cond imm => Sys2Proof.Machine.execB cond imm s
  | .bl cond imm => Sys2Proof.Machine.execBl cond imm s
  | .swi cond comment => Sys2Proof.Machine.execSwi cond comment s
  | .tLslImm imm rs rd => Sys2Proof.Machine.execTLslImm imm rs rd s
  | .tLsrImm imm rs rd => Sys2Proof.Machine.execTLsrImm imm rs rd s
  | .tAsrImm imm rs rd => Sys2Proof.Machine.execTAsrImm imm rs rd s
  | .tAddReg rn rs rd => Sys2Proof.Machine.execTAddReg rn rs rd s
  | .tSubReg rn rs rd => Sys2Proof.Machine.execTSubReg rn rs rd s
  | .tAddImm3 imm rs rd => Sys2Proof.Machine.execTAddImm3 imm rs rd s
  | .tSubImm3 imm rs rd => Sys2Proof.Machine.execTSubImm3 imm rs rd s
  | .tMovImm rd imm => Sys2Proof.Machine.execTMovImm rd imm s
  | .tCmpImm rd imm => Sys2Proof.Machine.execTCmpImm rd imm s
  | .tAddImm8 rd imm => Sys2Proof.Machine.execTAddImm8 rd imm s
  | .tSubImm8 rd imm => Sys2Proof.Machine.execTSubImm8 rd imm s
  | .tAnd rs rd => Sys2Proof.Machine.execTAnd rs rd s
  | .tEor rs rd => Sys2Proof.Machine.execTEor rs rd s
  | .tLslReg rs rd => Sys2Proof.Machine.execTLslReg rs rd s
  | .tLsrReg rs rd => Sys2Proof.Machine.execTLsrReg rs rd s
  | .tAsrReg rs rd => Sys2Proof.Machine.execTAsrReg rs rd s
  | .tAdc rs rd => Sys2Proof.Machine.execTAdc rs rd s
  | .tSbc rs rd => Sys2Proof.Machine.execTSbc rs rd s
  | .tRor rs rd => Sys2Proof.Machine.execTRor rs rd s
  | .tTst rs rd => Sys2Proof.Machine.execTTst rs rd s
  | .tNeg rs rd => Sys2Proof.Machine.execTNeg rs rd s
  | .tCmpReg rs rd => Sys2Proof.Machine.execTCmpReg rs rd s
  | .tCmn rs rd => Sys2Proof.Machine.execTCmn rs rd s
  | .tOrr rs rd => Sys2Proof.Machine.execTOrr rs rd s
  | .tMul rs rd => Sys2Proof.Machine.execTMul rs rd s
  | .tBic rs rd => Sys2Proof.Machine.execTBic rs rd s
  | .tMvn rs rd => Sys2Proof.Machine.execTMvn rs rd s
  | .tAddHi h1 h2 rs rd => Sys2Proof.Machine.execTAddHi h1 h2 rs rd s
  | .tCmpHi h1 h2 rs rd => Sys2Proof.Machine.execTCmpHi h1 h2 rs rd s
  | .tMovHi h1 h2 rs rd => Sys2Proof.Machine.execTMovHi h1 h2 rs rd s
  | .tBx h1 h2 rs rd => Sys2Proof.Machine.execTBx h1 h2 rs rd s
  | .tLdrPc rd imm => Sys2Proof.Machine.execTLdrPc rd imm s
  | .tStrReg ro rb rd => Sys2Proof.Machine.execTStrReg ro rb rd s
  | .tStrbReg ro rb rd => Sys2Proof.Machine.execTStrbReg ro rb rd s
  | .tLdrReg ro rb rd => Sys2Proof.Machine.execTLdrReg ro rb rd s
  | .tLdrbReg ro rb rd => Sys2Proof.Machine.execTLdrbReg ro rb rd s
  | .tStrhReg ro rb rd => Sys2Proof.Machine.execTStrhReg ro rb rd s
  | .tLdsb ro rb rd => Sys2Proof.Machine.execTLdsb ro rb rd s
  | .tLdrhReg ro rb rd => Sys2Proof.Machine.execTLdrhReg ro rb rd s
  | .tLdsh ro rb rd => Sys2Proof.Machine.execTLdsh ro rb rd s
  | .tStrImm imm rb rd => Sys2Proof.Machine.execTStrImm imm rb rd s
  | .tLdrImm imm rb rd => Sys2Proof.Machine.execTLdrImm imm rb rd s
  | .tStrbImm imm rb rd => Sys2Proof.Machine.execTStrbImm imm rb rd s
  | .tLdrbImm imm rb rd => Sys2Proof.Machine.execTLdrbImm imm rb rd s
  | .tStrhImm imm rb rd => Sys2Proof.Machine.execTStrhImm imm rb rd s
  | .tLdrhImm imm rb rd => Sys2Proof.Machine.execTLdrhImm imm rb rd s
  | .tStrSp rd imm => Sys2Proof.Machine.execTStrSp rd imm s
  | .tLdrSp rd imm => Sys2Proof.Machine.execTLdrSp rd imm s
  | .tAddPc rd imm => Sys2Proof.Machine.execTAddPc rd imm s
  | .tAddSp rd imm => Sys2Proof.Machine.execTAddSp rd imm s
  | .tAddSpImm imm => Sys2Proof.Machine.execTAddSpImm imm s
  | .tSubSpImm imm => Sys2Proof.Machine.execTSubSpImm imm s
  | .tPush lr list => Sys2Proof.Machine.execTPush lr list s
  | .tPop pc list => Sys2Proof.Machine.execTPop pc list s
  | .tStmia rb list => Sys2Proof.Machine.execTStmia rb list s
  | .tLdmia rb list => Sys2Proof.Machine.execTLdmia rb list s
  | .tBcond cond imm => Sys2Proof.Machine.execTBcond cond imm s
  | .tSwi comment => Sys2Proof.Machine.execTSwi comment s
  | .tB imm => Sys2Proof.Machine.execTB imm s
  | .tBlHi imm => Sys2Proof.Machine.execTBlHi imm s
  | .tBlLo imm => Sys2Proof.Machine.execTBlLo imm s

end Sys2Proof.Machine
end

