-- ==== Sys2Proof/Machine/Fetch.lean ====
section
/-! DEFINITION. The stages of a step around `exec`: the inputs, the interrupt entries, the fetch, the drain of the cycle clock (00_scope.md
R12, 20_memory.md R118, R125, 60_exceptions.md R605, R615), and the placing of an instruction where the next step fetches it. -/

namespace Sys2Proof.Machine

/-- The writes of collaborators between two steps: they reach region bytes alone, never the wait-state register (R83, R125). -/
def collaboratorWrites : List (Word × Byte) → Memory → Memory
  | [], m => m
  | (a, v) :: rest, m => collaboratorWrites rest (m.setByte a v)

namespace State

/-- The input of the next step: none left means lines low and no writes (assumption 5). -/
def nextInput (s : State) : EnvStep := s.env.headD {}

/-- The state a step starts from: the collaborators have written, and the input is consumed (R125). -/
def afterInput (s : State) : State :=
  { s with mem := collaboratorWrites s.nextInput.writes s.mem, env := s.env.tail }

/-- The FIQ input is there, asserted and not masked (R605, R613, R615). -/
def fiqTaken (s : State) (inp : EnvStep) : Bool := s.config.fiqPresent && inp.fiq && !psrF s.cpsr

/-- The IRQ input is asserted and not masked (R605, R615). -/
def irqTaken (s : State) (inp : EnvStep) : Bool := inp.irq && !psrI s.cpsr

/-- The fetch at the pc (R118). -/
def fetch (s : State) : Code := if s.thumb then .thumb (s.memRead16 s.pc) else .arm (s.memRead32 s.pc)

/-- The fetch, the decoding and the execution of one instruction (R12, R162, R605). -/
def runInstr (s : State) : Result :=
  match decode s.fetch with
  | .undefined raw index isa => .fault (.decodeError raw index isa)
  | .instr i => exec i s

/-- The drain of the cycle clock into the `cycles` output of the step (R80, R81, assumption 6). -/
def drain (s : State) : State := { s with cyclesOut := s.cycles, cycles := 0 }

/-- The one thing a step does once its input is sampled, in the order of R605: FIQ entry, IRQ entry, or an instruction. An entry
charges the fetch it did not execute and the refill at the vector (R745). -/
def afterSampling (s : State) (inp : EnvStep) : Result :=
  if s.fiqTaken inp then .next ((s.chargeCode .S).takeFiq.finish true)
  else if s.irqTaken inp then .next ((s.chargeCode .S).takeIrq.finish true)
  else s.runInstr

end State

/-- The end of a step: a next state is drained, a fault stays as it is (R80, R85). -/
def drained : Result → Result
  | .next t => .next t.drain
  | .fault r => .fault r
  | .refused r => .refused r

/-- Bytes stored at an address and up, each address mapped first. -/
def Memory.load : List Byte → Word → Memory → Memory
  | [], _, m => m
  | b :: rest, a, m =>
    let m1 := if m.mapped a then m else { m with regions := m.regions ++ [⟨a.toNat, a.toNat + 1⟩] }
    Memory.load rest (a + 1) (m1.setByte a b)

/-- A raw instruction placed where the next step fetches it: T selects its set, the pc is aligned for it, its bytes stand there, and
inputs that are waiting get a quiet one before them (assumption 15). -/
def State.placeCode (s : State) (c : Code) : State :=
  let t := s.writeThumb (c.isa == .thumb)
  let pc := t.alignPc s.pc
  { t with pc := pc, mem := Memory.load c.bytes pc s.mem, env := if s.env = [] then [] else {} :: s.env }

end Sys2Proof.Machine
end

