-- ==== Sys2Proof/Machine/Step.lean ====
section
/-! DEFINITION. The step of the core (00_scope.md R12), and the state whose next step runs a given instruction. -/

namespace Sys2Proof.Machine

/-- One step: the collaborators' writes, the sampling of the interrupt inputs, then one entry or one instruction, and the drain of the
cycle clock (R12, R605). -/
def step (s : State) : Host.Outcome State Fault Refusal := drained (s.afterInput.afterSampling s.nextInput)

/-- The state whose next step fetches the instruction of `nbits` bits with number `w`: 32 bits are an ARM word, 16 a Thumb
halfword (assumption 15). -/
def State.withFetchWord (s : State) (nbits w : Nat) : State :=
  match tableCode nbits w with
  | none => s
  | some c => s.placeCode c

end Sys2Proof.Machine
end

