-- ==== Sys2Proof/Safety.lean ====
section
/-! DEFINITION. The terms the claims use: a safe run, the invariant, the condition of an instruction, and what each instruction may
change. -/

namespace Sys2Proof.Machine

/-! ## Safe runs -/

/-- The step goes on. -/
def Continues (s : State) : Prop := ∃ t, step s = .next t

/-- The run of `k` steps meets no fault and no refusal. -/
def SafeFor (k : Nat) (s : State) : Prop := ∃ t, core.run k s = .next t

/-- The instruction completes, in a state of which `post` holds. -/
def Completes (i : Instr) (s : State) (post : State → Prop) : Prop := ∃ t, exec i s = .next t ∧ post t

/-! ## The invariant -/

/-- The bits of a PSR that do not exist (R71). -/
def psrReserved (p : Word) : Word := p &&& ~~~psrImplemented

/-- What holds of every state the core can be in: the memory in its canonical form (R101), the reserved bits of every PSR 0 (R71),
the mode field a mode (R57), the pc aligned for the instruction set (R63), and bits 13 and 15 of the wait-state register 0 (R82). -/
structure State.WellFormed (s : State) : Prop where
  mem : s.mem.wf = true
  cpsr : psrReserved s.cpsr = 0
  mode : (Mode.ofBits? (psrM s.cpsr)).isSome = true
  spsrFiq : psrReserved s.spsrFiq = 0
  spsrIrq : psrReserved s.spsrIrq = 0
  spsrSvc : psrReserved s.spsrSvc = 0
  spsrAbt : psrReserved s.spsrAbt = 0
  spsrUnd : psrReserved s.spsrUnd = 0
  pc : s.alignPc s.pc = s.pc
  waitcnt : s.waitcnt &&& 0xA000#16 = 0

/-- The invariant of a step: well formed, and the cycle clock drained (R80, R730). -/
structure State.Inv (s : State) : Prop where
  wellFormed : s.WellFormed
  drained : s.cycles = 0

/-! ## What an instruction does to the pc and a register -/

/-- `R[rd] <- v` as the whole write of registers: a branch when Rd is R15, else the register, and the pc past the instruction
(R66). -/
def WroteReg (s t : State) (rd : Reg) (v : Word) : Prop :=
  if rd = 15 then t.pc = s.alignPc v else t.readReg rd = v ∧ t.pc = s.pc + s.ilen

/-- The four flags. -/
def FlagsAre (t : State) (n z c v : Bool) : Prop := t.flagN = n ∧ t.flagZ = z ∧ t.flagC = c ∧ t.flagV = v

/-- The four flags are those of another state. -/
def SameFlags (s t : State) : Prop := FlagsAre t s.flagN s.flagZ s.flagC s.flagV

/-- Every byte of memory and the wait-state register are the same. -/
def SameMemory (s t : State) : Prop := (∀ a, t.mem.byte a = s.mem.byte a) ∧ t.waitcnt = s.waitcnt

/-! ## Conditions -/

/-- The condition an instruction carries; a Thumb instruction without one executes always (R221, R222). -/
def condOf : Instr → Cond
  | .andImm cond _ _ _ _ _ => cond
  | .andShimm cond _ _ _ _ _ _ => cond
  | .andShreg cond _ _ _ _ _ _ => cond
  | .eorImm cond _ _ _ _ _ => cond
  | .eorShimm cond _ _ _ _ _ _ => cond
  | .eorShreg cond _ _ _ _ _ _ => cond
  | .subImm cond _ _ _ _ _ => cond
  | .subShimm cond _ _ _ _ _ _ => cond
  | .subShreg cond _ _ _ _ _ _ => cond
  | .rsbImm cond _ _ _ _ _ => cond
  | .rsbShimm cond _ _ _ _ _ _ => cond
  | .rsbShreg cond _ _ _ _ _ _ => cond
  | .addImm cond _ _ _ _ _ => cond
  | .addShimm cond _ _ _ _ _ _ => cond
  | .addShreg cond _ _ _ _ _ _ => cond
  | .adcImm cond _ _ _ _ _ => cond
  | .adcShimm cond _ _ _ _ _ _ => cond
  | .adcShreg cond _ _ _ _ _ _ => cond
  | .sbcImm cond _ _ _ _ _ => cond
  | .sbcShimm cond _ _ _ _ _ _ => cond
  | .sbcShreg cond _ _ _ _ _ _ => cond
  | .rscImm cond _ _ _ _ _ => cond
  | .rscShimm cond _ _ _ _ _ _ => cond
  | .rscShreg cond _ _ _ _ _ _ => cond
  | .tstImm cond _ _ _ _ => cond
  | .tstShimm cond _ _ _ _ _ => cond
  | .tstShreg cond _ _ _ _ _ => cond
  | .teqImm cond _ _ _ _ => cond
  | .teqShimm cond _ _ _ _ _ => cond
  | .teqShreg cond _ _ _ _ _ => cond
  | .cmpImm cond _ _ _ _ => cond
  | .cmpShimm cond _ _ _ _ _ => cond
  | .cmpShreg cond _ _ _ _ _ => cond
  | .cmnImm cond _ _ _ _ => cond
  | .cmnShimm cond _ _ _ _ _ => cond
  | .cmnShreg cond _ _ _ _ _ => cond
  | .orrImm cond _ _ _ _ _ => cond
  | .orrShimm cond _ _ _ _ _ _ => cond
  | .orrShreg cond _ _ _ _ _ _ => cond
  | .movImm cond _ _ _ _ _ => cond
  | .movShimm cond _ _ _ _ _ _ => cond
  | .movShreg cond _ _ _ _ _ _ => cond
  | .bicImm cond _ _ _ _ _ => cond
  | .bicShimm cond _ _ _ _ _ _ => cond
  | .bicShreg cond _ _ _ _ _ _ => cond
  | .mvnImm cond _ _ _ _ _ => cond
  | .mvnShimm cond _ _ _ _ _ _ => cond
  | .mvnShreg cond _ _ _ _ _ _ => cond
  | .mrs cond _ _ => cond
  | .msrReg cond _ _ _ => cond
  | .msrImm cond _ _ _ _ => cond
  | .mul cond _ _ _ _ => cond
  | .mla cond _ _ _ _ _ => cond
  | .umull cond _ _ _ _ _ => cond
  | .umlal cond _ _ _ _ _ => cond
  | .smull cond _ _ _ _ _ => cond
  | .smlal cond _ _ _ _ _ => cond
  | .swp cond _ _ _ => cond
  | .swpb cond _ _ _ => cond
  | .bx cond _ => cond
  | .strImm cond _ _ _ _ _ _ => cond
  | .strReg cond _ _ _ _ _ _ _ _ => cond
  | .strtImm cond _ _ _ _ => cond
  | .strtReg cond _ _ _ _ _ _ => cond
  | .ldrImm cond _ _ _ _ _ _ => cond
  | .ldrReg cond _ _ _ _ _ _ _ _ => cond
  | .ldrtImm cond _ _ _ _ => cond
  | .ldrtReg cond _ _ _ _ _ _ => cond
  | .strbImm cond _ _ _ _ _ _ => cond
  | .strbReg cond _ _ _ _ _ _ _ _ => cond
  | .strbtImm cond _ _ _ _ => cond
  | .strbtReg cond _ _ _ _ _ _ => cond
  | .ldrbImm cond _ _ _ _ _ _ => cond
  | .ldrbReg cond _ _ _ _ _ _ _ _ => cond
  | .ldrbtImm cond _ _ _ _ => cond
  | .ldrbtReg cond _ _ _ _ _ _ => cond
  | .strhImm cond _ _ _ _ _ _ => cond
  | .strhReg cond _ _ _ _ _ _ => cond
  | .ldrhImm cond _ _ _ _ _ _ => cond
  | .ldrhReg cond _ _ _ _ _ _ => cond
  | .ldrsbImm cond _ _ _ _ _ _ => cond
  | .ldrsbReg cond _ _ _ _ _ _ => cond
  | .ldrshImm cond _ _ _ _ _ _ => cond
  | .ldrshReg cond _ _ _ _ _ _ => cond
  | .ldmia cond _ _ _ _ => cond
  | .stmia cond _ _ _ _ => cond
  | .ldmib cond _ _ _ _ => cond
  | .stmib cond _ _ _ _ => cond
  | .ldmda cond _ _ _ _ => cond
  | .stmda cond _ _ _ _ => cond
  | .ldmdb cond _ _ _ _ => cond
  | .stmdb cond _ _ _ _ => cond
  | .b cond _ => cond
  | .bl cond _ => cond
  | .swi cond _ => cond
  | .tLslImm _ _ _ => .al
  | .tLsrImm _ _ _ => .al
  | .tAsrImm _ _ _ => .al
  | .tAddReg _ _ _ => .al
  | .tSubReg _ _ _ => .al
  | .tAddImm3 _ _ _ => .al
  | .tSubImm3 _ _ _ => .al
  | .tMovImm _ _ => .al
  | .tCmpImm _ _ => .al
  | .tAddImm8 _ _ => .al
  | .tSubImm8 _ _ => .al
  | .tAnd _ _ => .al
  | .tEor _ _ => .al
  | .tLslReg _ _ => .al
  | .tLsrReg _ _ => .al
  | .tAsrReg _ _ => .al
  | .tAdc _ _ => .al
  | .tSbc _ _ => .al
  | .tRor _ _ => .al
  | .tTst _ _ => .al
  | .tNeg _ _ => .al
  | .tCmpReg _ _ => .al
  | .tCmn _ _ => .al
  | .tOrr _ _ => .al
  | .tMul _ _ => .al
  | .tBic _ _ => .al
  | .tMvn _ _ => .al
  | .tAddHi _ _ _ _ => .al
  | .tCmpHi _ _ _ _ => .al
  | .tMovHi _ _ _ _ => .al
  | .tBx _ _ _ _ => .al
  | .tLdrPc _ _ => .al
  | .tStrReg _ _ _ => .al
  | .tStrbReg _ _ _ => .al
  | .tLdrReg _ _ _ => .al
  | .tLdrbReg _ _ _ => .al
  | .tStrhReg _ _ _ => .al
  | .tLdsb _ _ _ => .al
  | .tLdrhReg _ _ _ => .al
  | .tLdsh _ _ _ => .al
  | .tStrImm _ _ _ => .al
  | .tLdrImm _ _ _ => .al
  | .tStrbImm _ _ _ => .al
  | .tLdrbImm _ _ _ => .al
  | .tStrhImm _ _ _ => .al
  | .tLdrhImm _ _ _ => .al
  | .tStrSp _ _ => .al
  | .tLdrSp _ _ => .al
  | .tAddPc _ _ => .al
  | .tAddSp _ _ => .al
  | .tAddSpImm _ => .al
  | .tSubSpImm _ => .al
  | .tPush _ _ => .al
  | .tPop _ _ => .al
  | .tStmia _ _ => .al
  | .tLdmia _ _ => .al
  | .tBcond cond _ => cond
  | .tSwi _ => .al
  | .tB _ => .al
  | .tBlHi _ => .al
  | .tBlLo _ => .al

/-! ## What an instruction may change -/

/-- A run of bytes: an address and a length. -/
structure Span where
  start : Word
  bytes : Nat
  deriving DecidableEq, Repr

/-- The address lies in the run. -/
def Span.covers (x : Span) (a : Word) : Bool := decide ((a - x.start).toNat < x.bytes)

/-- What an instruction may change besides the pc and the cycle clock: general registers, the flags N, Z, C, V in that order, the
control byte of the CPSR, the SPSRs, and the bytes of memory it stores to. -/
structure Effects where
  regs : List PhysReg := []
  flags : BitVec 4 := 0
  control : Bool := false
  spsr : Bool := false
  stores : List Span := []
  deriving DecidableEq, Repr

/-- Registers of the current mode (R55). -/
def regEffects (l : List Reg) (s : State) : Effects := { regs := l.map fun n => phys n s.mode }

/-- The base a transfer writes back (R248). -/
def baseWritten (p w : Bool) (rn : Reg) : List Reg := if writesBack p w then [rn] else []

/-- The bytes a store of a width writes: from the address forced down (R113 to R115). -/
def storeSpan (k : StoreKind) (addr : Word) : Span := { start := alignTo k.width addr, bytes := k.bytes }

/-- Data processing: Rd unless a test, the flags of its class with S = 1, and everything of the CPSR when it returns (R263 to R267). -/
def dpEffects (op : AluOp) (sf : Bool) (rd : Reg) (s : State) : Effects :=
  let regs := if isTest op then [] else [rd]
  if sf && rd = 15 && !isTest op then { regEffects regs s with flags := 0b1111#4, control := true }
  else
    match op with
    | .and | .eor | .tst | .teq | .orr | .mov | .bic | .mvn =>
      { regEffects regs s with flags := if sf then 0b1110#4 else 0 }
    | .sub | .rsb | .add | .adc | .sbc | .rsc | .cmp | .cmn =>
      { regEffects regs s with flags := if sf then 0b1111#4 else 0 }

/-- A single store: its bytes, and the base it writes back (R320). -/
def storeEffects (k : StoreKind) (p u w : Bool) (rn : Reg) (off : Word) (s : State) : Effects :=
  { regEffects (baseWritten p w rn) s with stores := [storeSpan k (accessAddr p u (s.readReg rn) off)] }

/-- LDM: the listed registers in the bank it loads, the base it writes back, and everything of the CPSR when it returns (R342, R350,
R352). -/
def ldmEffects (ub w : Bool) (rn : Reg) (list : BitVec 16) (s : State) : Effects :=
  let hasPc := (effectiveList list).getLsbD 15
  { regs := (regsOf (effectiveList list)).map (fun n => phys n (if ub && !hasPc then .usr else s.mode)) ++
      (if w then [phys rn s.mode] else [])
    flags := if ub && hasPc then 0b1111#4 else 0
    control := ub && hasPc }

/-- The words of `n` transfers from `a` up (R341). -/
def wordSpans (a : Word) (n : Nat) : List Span :=
  (List.range n).map fun k => { start := alignWord (a + BitVec.ofNat 32 (4 * k)), bytes := 4 }

/-- STM: its words, and the base it writes back (R344). -/
def stmEffects (p u w : Bool) (rn : Reg) (list : BitVec 16) (s : State) : Effects :=
  { regs := if w then [phys rn s.mode] else []
    stores := wordSpans (blockStart p u (s.readReg rn) (effectiveCount list)) (regsOf (effectiveList list)).length }

/-- SWI: the link register of Supervisor mode, an SPSR, and the control byte (R610). -/
def swiEffects : Effects := { regs := [phys 14 .svc], control := true, spsr := true }

/-- What each instruction may change on a state, by its rule. -/
def effects (i : Instr) (s : State) : Effects :=
  match i with
  | .andImm _ sf _ rd _ _ => dpEffects .and sf rd s
  | .andShimm _ sf _ rd _ _ _ => dpEffects .and sf rd s
  | .andShreg _ sf _ rd _ _ _ => dpEffects .and sf rd s
  | .eorImm _ sf _ rd _ _ => dpEffects .eor sf rd s
  | .eorShimm _ sf _ rd _ _ _ => dpEffects .eor sf rd s
  | .eorShreg _ sf _ rd _ _ _ => dpEffects .eor sf rd s
  | .subImm _ sf _ rd _ _ => dpEffects .sub sf rd s
  | .subShimm _ sf _ rd _ _ _ => dpEffects .sub sf rd s
  | .subShreg _ sf _ rd _ _ _ => dpEffects .sub sf rd s
  | .rsbImm _ sf _ rd _ _ => dpEffects .rsb sf rd s
  | .rsbShimm _ sf _ rd _ _ _ => dpEffects .rsb sf rd s
  | .rsbShreg _ sf _ rd _ _ _ => dpEffects .rsb sf rd s
  | .addImm _ sf _ rd _ _ => dpEffects .add sf rd s
  | .addShimm _ sf _ rd _ _ _ => dpEffects .add sf rd s
  | .addShreg _ sf _ rd _ _ _ => dpEffects .add sf rd s
  | .adcImm _ sf _ rd _ _ => dpEffects .adc sf rd s
  | .adcShimm _ sf _ rd _ _ _ => dpEffects .adc sf rd s
  | .adcShreg _ sf _ rd _ _ _ => dpEffects .adc sf rd s
  | .sbcImm _ sf _ rd _ _ => dpEffects .sbc sf rd s
  | .sbcShimm _ sf _ rd _ _ _ => dpEffects .sbc sf rd s
  | .sbcShreg _ sf _ rd _ _ _ => dpEffects .sbc sf rd s
  | .rscImm _ sf _ rd _ _ => dpEffects .rsc sf rd s
  | .rscShimm _ sf _ rd _ _ _ => dpEffects .rsc sf rd s
  | .rscShreg _ sf _ rd _ _ _ => dpEffects .rsc sf rd s
  | .tstImm _ _ rd _ _ => dpEffects .tst true rd s
  | .tstShimm _ _ rd _ _ _ => dpEffects .tst true rd s
  | .tstShreg _ _ rd _ _ _ => dpEffects .tst true rd s
  | .teqImm _ _ rd _ _ => dpEffects .teq true rd s
  | .teqShimm _ _ rd _ _ _ => dpEffects .teq true rd s
  | .teqShreg _ _ rd _ _ _ => dpEffects .teq true rd s
  | .cmpImm _ _ rd _ _ => dpEffects .cmp true rd s
  | .cmpShimm _ _ rd _ _ _ => dpEffects .cmp true rd s
  | .cmpShreg _ _ rd _ _ _ => dpEffects .cmp true rd s
  | .cmnImm _ _ rd _ _ => dpEffects .cmn true rd s
  | .cmnShimm _ _ rd _ _ _ => dpEffects .cmn true rd s
  | .cmnShreg _ _ rd _ _ _ => dpEffects .cmn true rd s
  | .orrImm _ sf _ rd _ _ => dpEffects .orr sf rd s
  | .orrShimm _ sf _ rd _ _ _ => dpEffects .orr sf rd s
  | .orrShreg _ sf _ rd _ _ _ => dpEffects .orr sf rd s
  | .movImm _ sf _ rd _ _ => dpEffects .mov sf rd s
  | .movShimm _ sf _ rd _ _ _ => dpEffects .mov sf rd s
  | .movShreg _ sf _ rd _ _ _ => dpEffects .mov sf rd s
  | .bicImm _ sf _ rd _ _ => dpEffects .bic sf rd s
  | .bicShimm _ sf _ rd _ _ _ => dpEffects .bic sf rd s
  | .bicShreg _ sf _ rd _ _ _ => dpEffects .bic sf rd s
  | .mvnImm _ sf _ rd _ _ => dpEffects .mvn sf rd s
  | .mvnShimm _ sf _ rd _ _ _ => dpEffects .mvn sf rd s
  | .mvnShreg _ sf _ rd _ _ _ => dpEffects .mvn sf rd s
  | .mrs _ _ rd => regEffects [rd] s
  | .msrReg _ spsr mask _ => { flags := if mask.f && !spsr then 0b1111#4 else 0, control := mask.c && !spsr, spsr := spsr }
  | .msrImm _ spsr mask _ _ => { flags := if mask.f && !spsr then 0b1111#4 else 0, control := mask.c && !spsr, spsr := spsr }
  | .mul _ sf rd _ _ => { regEffects [rd] s with flags := if sf then 0b1100#4 else 0 }
  | .mla _ sf rd _ _ _ => { regEffects [rd] s with flags := if sf then 0b1100#4 else 0 }
  | .umull _ sf rdHi rdLo _ _ => { regEffects [rdLo, rdHi] s with flags := if sf then 0b1100#4 else 0 }
  | .umlal _ sf rdHi rdLo _ _ => { regEffects [rdLo, rdHi] s with flags := if sf then 0b1100#4 else 0 }
  | .smull _ sf rdHi rdLo _ _ => { regEffects [rdLo, rdHi] s with flags := if sf then 0b1100#4 else 0 }
  | .smlal _ sf rdHi rdLo _ _ => { regEffects [rdLo, rdHi] s with flags := if sf then 0b1100#4 else 0 }
  | .swp _ rn rd _ => { regEffects [rd] s with stores := [storeSpan .word (s.readReg rn)] }
  | .swpb _ rn rd _ => { regEffects [rd] s with stores := [storeSpan .byte (s.readReg rn)] }
  | .bx _ _ => { control := true }
  | .strImm _ p u w rn _ imm => storeEffects .word p u w rn (imm.zeroExtend 32) s
  | .strReg _ p u w rn _ amount ty rm => storeEffects .word p u w rn (regOffset s amount ty rm) s
  | .strtImm _ u rn _ imm => storeEffects .word false u true rn (imm.zeroExtend 32) s
  | .strtReg _ u rn _ amount ty rm => storeEffects .word false u true rn (regOffset s amount ty rm) s
  | .ldrImm _ p _ w rn rd _ => regEffects (rd :: baseWritten p w rn) s
  | .ldrReg _ p _ w rn rd _ _ _ => regEffects (rd :: baseWritten p w rn) s
  | .ldrtImm _ _ rn rd _ => regEffects [rd, rn] s
  | .ldrtReg _ _ rn rd _ _ _ => regEffects [rd, rn] s
  | .strbImm _ p u w rn _ imm => storeEffects .byte p u w rn (imm.zeroExtend 32) s
  | .strbReg _ p u w rn _ amount ty rm => storeEffects .byte p u w rn (regOffset s amount ty rm) s
  | .strbtImm _ u rn _ imm => storeEffects .byte false u true rn (imm.zeroExtend 32) s
  | .strbtReg _ u rn _ amount ty rm => storeEffects .byte false u true rn (regOffset s amount ty rm) s
  | .ldrbImm _ p _ w rn rd _ => regEffects (rd :: baseWritten p w rn) s
  | .ldrbReg _ p _ w rn rd _ _ _ => regEffects (rd :: baseWritten p w rn) s
  | .ldrbtImm _ _ rn rd _ => regEffects [rd, rn] s
  | .ldrbtReg _ _ rn rd _ _ _ => regEffects [rd, rn] s
  | .strhImm _ p u w rn _ imm => storeEffects .half p u w rn (imm.zeroExtend 32) s
  | .strhReg _ p u w rn _ rm => storeEffects .half p u w rn (s.readReg rm) s
  | .ldrhImm _ p _ w rn rd _ => regEffects (rd :: baseWritten p w rn) s
  | .ldrhReg _ p _ w rn rd _ => regEffects (rd :: baseWritten p w rn) s
  | .ldrsbImm _ p _ w rn rd _ => regEffects (rd :: baseWritten p w rn) s
  | .ldrsbReg _ p _ w rn rd _ => regEffects (rd :: baseWritten p w rn) s
  | .ldrshImm _ p _ w rn rd _ => regEffects (rd :: baseWritten p w rn) s
  | .ldrshReg _ p _ w rn rd _ => regEffects (rd :: baseWritten p w rn) s
  | .ldmia _ ub w rn list => ldmEffects ub w rn list s
  | .stmia _ _ w rn list => stmEffects false true w rn list s
  | .ldmib _ ub w rn list => ldmEffects ub w rn list s
  | .stmib _ _ w rn list => stmEffects true true w rn list s
  | .ldmda _ ub w rn list => ldmEffects ub w rn list s
  | .stmda _ _ w rn list => stmEffects false false w rn list s
  | .ldmdb _ ub w rn list => ldmEffects ub w rn list s
  | .stmdb _ _ w rn list => stmEffects true false w rn list s
  | .b _ _ => {}
  | .bl _ _ => regEffects [14] s
  | .swi _ _ => swiEffects
  | .tLslImm _ _ rd => { regEffects [lo rd] s with flags := 0b1110#4 }
  | .tLsrImm _ _ rd => { regEffects [lo rd] s with flags := 0b1110#4 }
  | .tAsrImm _ _ rd => { regEffects [lo rd] s with flags := 0b1110#4 }
  | .tAddReg _ _ rd => { regEffects [lo rd] s with flags := 0b1111#4 }
  | .tSubReg _ _ rd => { regEffects [lo rd] s with flags := 0b1111#4 }
  | .tAddImm3 _ _ rd => { regEffects [lo rd] s with flags := 0b1111#4 }
  | .tSubImm3 _ _ rd => { regEffects [lo rd] s with flags := 0b1111#4 }
  | .tMovImm rd _ => { regEffects [lo rd] s with flags := 0b1100#4 }
  | .tCmpImm _ _ => { flags := 0b1111#4 }
  | .tAddImm8 rd _ => { regEffects [lo rd] s with flags := 0b1111#4 }
  | .tSubImm8 rd _ => { regEffects [lo rd] s with flags := 0b1111#4 }
  | .tAnd _ rd => { regEffects [lo rd] s with flags := 0b1100#4 }
  | .tEor _ rd => { regEffects [lo rd] s with flags := 0b1100#4 }
  | .tLslReg _ rd => { regEffects [lo rd] s with flags := 0b1110#4 }
  | .tLsrReg _ rd => { regEffects [lo rd] s with flags := 0b1110#4 }
  | .tAsrReg _ rd => { regEffects [lo rd] s with flags := 0b1110#4 }
  | .tAdc _ rd => { regEffects [lo rd] s with flags := 0b1111#4 }
  | .tSbc _ rd => { regEffects [lo rd] s with flags := 0b1111#4 }
  | .tRor _ rd => { regEffects [lo rd] s with flags := 0b1110#4 }
  | .tTst _ _ => { flags := 0b1100#4 }
  | .tNeg _ rd => { regEffects [lo rd] s with flags := 0b1111#4 }
  | .tCmpReg _ _ => { flags := 0b1111#4 }
  | .tCmn _ _ => { flags := 0b1111#4 }
  | .tOrr _ rd => { regEffects [lo rd] s with flags := 0b1100#4 }
  | .tMul _ rd => { regEffects [lo rd] s with flags := 0b1100#4 }
  | .tBic _ rd => { regEffects [lo rd] s with flags := 0b1100#4 }
  | .tMvn _ rd => { regEffects [lo rd] s with flags := 0b1100#4 }
  | .tAddHi h1 _ _ rd => regEffects [hiReg h1 rd] s
  | .tCmpHi _ _ _ _ => { flags := 0b1111#4 }
  | .tMovHi h1 _ _ rd => regEffects [hiReg h1 rd] s
  | .tBx _ _ _ _ => { control := true }
  | .tLdrPc rd _ => regEffects [lo rd] s
  | .tStrReg ro rb _ => { stores := [storeSpan .word (s.readReg (lo rb) + s.readReg (lo ro))] }
  | .tStrbReg ro rb _ => { stores := [storeSpan .byte (s.readReg (lo rb) + s.readReg (lo ro))] }
  | .tLdrReg _ _ rd => regEffects [lo rd] s
  | .tLdrbReg _ _ rd => regEffects [lo rd] s
  | .tStrhReg ro rb _ => { stores := [storeSpan .half (s.readReg (lo rb) + s.readReg (lo ro))] }
  | .tLdsb _ _ rd => regEffects [lo rd] s
  | .tLdrhReg _ _ rd => regEffects [lo rd] s
  | .tLdsh _ _ rd => regEffects [lo rd] s
  | .tStrImm imm rb _ => { stores := [storeSpan .word (s.readReg (lo rb) + scaled imm 2)] }
  | .tLdrImm _ _ rd => regEffects [lo rd] s
  | .tStrbImm imm rb _ => { stores := [storeSpan .byte (s.readReg (lo rb) + scaled imm 0)] }
  | .tLdrbImm _ _ rd => regEffects [lo rd] s
  | .tStrhImm imm rb _ => { stores := [storeSpan .half (s.readReg (lo rb) + scaled imm 1)] }
  | .tLdrhImm _ _ rd => regEffects [lo rd] s
  | .tStrSp _ imm => { stores := [storeSpan .word (s.readReg 13 + scaled imm 2)] }
  | .tLdrSp rd _ => regEffects [lo rd] s
  | .tAddPc rd _ => regEffects [lo rd] s
  | .tAddSp rd _ => regEffects [lo rd] s
  | .tAddSpImm _ => regEffects [13] s
  | .tSubSpImm _ => regEffects [13] s
  | .tPush lr list => stmEffects true false true 13 (stackList lr 14 list) s
  | .tPop pc list => ldmEffects false true 13 (stackList pc 15 list) s
  | .tStmia rb list => stmEffects false true true (lo rb) (list.zeroExtend 16) s
  | .tLdmia rb list => ldmEffects false true (lo rb) (list.zeroExtend 16) s
  | .tBcond _ _ => {}
  | .tSwi _ => swiEffects
  | .tB _ => {}
  | .tBlHi _ => regEffects [14] s
  | .tBlLo _ => regEffects [14] s

/-! ## What stays -/

/-- Every general register the effects do not name is unchanged. -/
def RegsKept (e : Effects) (s t : State) : Prop := ∀ r, r ≠ .pc → r ∉ e.regs → t.readPhys r = s.readPhys r

/-- Every flag the effects do not name is unchanged. -/
def FlagsKept (e : Effects) (s t : State) : Prop :=
  (e.flags.getLsbD 3 = false → t.flagN = s.flagN) ∧ (e.flags.getLsbD 2 = false → t.flagZ = s.flagZ) ∧
    (e.flags.getLsbD 1 = false → t.flagC = s.flagC) ∧ (e.flags.getLsbD 0 = false → t.flagV = s.flagV)

/-- Every bit of the CPSR below the flags is unchanged, unless the effects name the control byte. -/
def ControlKept (e : Effects) (s t : State) : Prop :=
  e.control = false → t.cpsr.extractLsb' 0 28 = s.cpsr.extractLsb' 0 28

/-- The SPSRs are unchanged, unless the effects name them. -/
def SpsrsKept (e : Effects) (s t : State) : Prop :=
  e.spsr = false → t.spsrFiq = s.spsrFiq ∧ t.spsrIrq = s.spsrIrq ∧ t.spsrSvc = s.spsrSvc ∧ t.spsrAbt = s.spsrAbt ∧
    t.spsrUnd = s.spsrUnd

/-- The address is in no run the effects store to. -/
def Effects.spares (e : Effects) (a : Word) : Prop := ∀ x ∈ e.stores, x.covers a = false

/-- Every byte the effects do not store to reads as before, the regions are the same, and the wait-state register is unless one of its
two bytes is stored to (R83). -/
def MemoryKept (e : Effects) (s t : State) : Prop :=
  (∀ a, e.spares a → t.mem.byte a = s.mem.byte a) ∧ t.mem.regions = s.mem.regions ∧
    (e.spares 0x04000204#32 → e.spares 0x04000205#32 → t.waitcnt = s.waitcnt)

/-- The parameters, the inputs to come and the last `cycles` output are unchanged. -/
def InputsKept (s t : State) : Prop := t.config = s.config ∧ t.env = s.env ∧ t.cyclesOut = s.cyclesOut

/-! ## The terms of the result claims -/

/-- A combination of registers that is UNPREDICTABLE does not stop the instruction: it is not this one, or the core is not strict
(R14). -/
def Allowed (s : State) (bad : Bool) : Prop := s.config.strictUnpredictable = true → bad = false

/-- No store of `n` bytes from `a` is stopped as a prefetch hazard (R720). -/
def NoHazard (s : State) (a : Word) (n : Nat) : Prop := s.config.prefetchHazard = .fault → s.inPrefetch a n = false

/-- The data-processing result of an operation on operand `a` and operand2 `o`: Rd or the test, the flags by `sf`, the pc (R261 to R267).
A form that returns from an exception is not this. -/
def DpDone (op : AluOp) (sf : Bool) (rd : Reg) (a : Word) (o : Shifted) (s t : State) : Prop :=
  let r := alu op a o s.flagC s.flagV
  (if isTest op then t.pc = s.pc + s.ilen else WroteReg s t rd r.res) ∧
    (if sf || isTest op then FlagsAre t r.res.msb (r.res == 0) r.carry r.overflow else SameFlags s t)

/-- A product in Rd, with N and Z of it when S = 1 (R301). -/
def MulDone (sf : Bool) (rd : Reg) (res : Word) (s t : State) : Prop :=
  WroteReg s t rd res ∧ (if sf then FlagsAre t res.msb (res == 0) s.flagC s.flagV else SameFlags s t)

/-- A 64-bit product in RdHi and RdLo, RdHi written last, with N and Z of the whole when S = 1 (R301, R302). -/
def MulLongDone (sf : Bool) (rdHi rdLo : Reg) (res : BitVec 64) (s t : State) : Prop :=
  let high := res.extractLsb' 32 32
  let low := res.extractLsb' 0 32
  (rdHi ≠ 15 → t.readReg rdHi = high) ∧ (rdLo ≠ rdHi → rdLo ≠ 15 → t.readReg rdLo = low) ∧
    t.pc = (if rdHi = 15 then s.alignPc high else if rdLo = 15 then s.alignPc low else s.pc + s.ilen) ∧
    (if sf then FlagsAre t res.msb (res == 0) s.flagC s.flagV else SameFlags s t)

/-- A word read at an address: the word at or below it, rotated (R112). -/
def wordAt (s : State) (a : Word) : Word := (s.mem.le32 (a &&& 0xFFFFFFFC#32)).rotateRight (8 * (a.toNat % 4))

/-- A halfword read at an address: the halfword at or below it, its bytes exchanged at an odd address (R111). -/
def halfAt (s : State) (a : Word) : Half := (s.mem.le16 (a &&& 0xFFFFFFFE#32)).rotateRight (8 * (a.toNat % 2))

/-- Where a single transfer by base and offset goes (R245). -/
def transferAddr (p u : Bool) (rn : Reg) (off : Word) (s : State) : Word :=
  let indexed := if u then s.readReg rn + off else s.readReg rn - off
  if p then indexed else s.readReg rn

/-- A load by base and offset: `val` of the address in Rd, and the base written back unless it is Rd; a write of R15 is a branch, and a
write-back to R15 suppresses the load's own (R245, R248, R249, R320, assumption 8). -/
def LoadDone (val : Word → Word) (p u w : Bool) (rn rd : Reg) (off : Word) (s t : State) : Prop :=
  let indexed := if u then s.readReg rn + off else s.readReg rn - off
  let v := val (transferAddr p u rn off s)
  let back := !p || w
  (rd ≠ 15 → t.readReg rd = v) ∧ (back = true → rn ≠ rd → rn ≠ 15 → t.readReg rn = indexed) ∧
    t.pc = (if back ∧ rn = 15 then s.alignPc indexed else if rd = 15 then s.alignPc v else s.pc + s.ilen)

/-- `n` bytes of a value stand from an address up, little-endian; an unmapped one reads 0 (R103, R106). -/
def StoredBytes (t : State) (a : Word) (n : Nat) (v : Word) : Prop :=
  ∀ j : Nat, j < n →
    t.mem.byte (a + BitVec.ofNat 32 j) = if t.mem.mapped (a + BitVec.ofNat 32 j) then v.extractLsb' (8 * j) 8 else 0

/-- The value a store reads from its register: R15 at its own offset (R325). -/
def storedReg (s : State) (n : Reg) : Word :=
  if n = 15 then s.pc + PcOffset.value s.config.storePcOffset else s.readReg n

/-- A store by base and offset: the bytes of Rd from the address forced down to the width, and the base written back (R245, R248,
R320). -/
def StoreDone (k : StoreKind) (p u w : Bool) (rn rd : Reg) (off : Word) (s t : State) : Prop :=
  let indexed := if u then s.readReg rn + off else s.readReg rn - off
  let back := !p || w
  StoredBytes t (alignTo k.width (transferAddr p u rn off s)) k.bytes (storedReg s rd) ∧
    (back = true → rn ≠ 15 → t.readReg rn = indexed) ∧
    t.pc = (if back ∧ rn = 15 then s.alignPc indexed else s.pc + s.ilen)

/-- The store of the bytes is no prefetch hazard. -/
def StoreAllowed (k : StoreKind) (p u : Bool) (rn : Reg) (off : Word) (s : State) : Prop :=
  NoHazard s (alignTo k.width (transferAddr p u rn off s)) k.bytes

/-- The LDM of an addressing mode (R340). -/
def ldmOf (p u : Bool) (cond : Cond) (ub w : Bool) (rn : Reg) (list : BitVec 16) : Instr :=
  match p, u with
  | false, true => .ldmia cond ub w rn list
  | true, true => .ldmib cond ub w rn list
  | false, false => .ldmda cond ub w rn list
  | true, false => .ldmdb cond ub w rn list

/-- The STM of an addressing mode (R340). -/
def stmOf (p u : Bool) (cond : Cond) (ub w : Bool) (rn : Reg) (list : BitVec 16) : Instr :=
  match p, u with
  | false, true => .stmia cond ub w rn list
  | true, true => .stmib cond ub w rn list
  | false, false => .stmda cond ub w rn list
  | true, false => .stmdb cond ub w rn list

/-- The table of R340 for a base `b` and `n` registers: the start address and the write-back value. -/
def blockTable (p u : Bool) (b : Word) (n : Nat) : Word × Word :=
  let len := BitVec.ofNat 32 (4 * n)
  match p, u with
  | false, true => (b, b + len)
  | true, true => (b + 4, b + len)
  | false, false => (b - len + 4, b - len)
  | true, false => (b - len, b - len)

/-- The registers a block transfer moves, and the number its addresses are computed with: an empty list moves R15 alone and counts 16
(R340, R346). -/
def blockRegs (list : BitVec 16) : List Reg × Nat := if list = 0 then ([15], 16) else (regsOf list, (regsOf list).length)

/-- The word-aligned address of the `k`-th transfer (R341). -/
def blockWord (start : Word) (k : Nat) : Word := (start + BitVec.ofNat 32 (4 * k)) &&& 0xFFFFFFFC#32

/-- The registers a block load filled: each listed register but R15, in a bank, from its word; and the base written back unless it is
listed (R340 to R343, R350). -/
def BlockLoaded (p u w : Bool) (bank : Mode) (rn : Reg) (list : BitVec 16) (s t : State) : Prop :=
  let regs := (blockRegs list).1
  let n := (blockRegs list).2
  let start := (blockTable p u (s.readReg rn) n).1
  let back := (blockTable p u (s.readReg rn) n).2
  (∀ (k : Nat) (r : Reg), regs[k]? = some r → r ≠ 15 → t.readBank bank r = s.mem.le32 (blockWord start k)) ∧
    (w = true → rn ∉ regs → rn ≠ 15 → t.readBank s.mode rn = back)

/-- The word a block load reads for R15: the last one (R340). -/
def blockPcWord (p u : Bool) (rn : Reg) (list : BitVec 16) (s : State) : Word :=
  let regs := (blockRegs list).1
  let n := (blockRegs list).2
  s.mem.le32 (blockWord (blockTable p u (s.readReg rn) n).1 (regs.length - 1))

/-- The value a block store takes for a register (R344, R345, R348, R350). -/
def blockValue (p u ub w : Bool) (rn : Reg) (list : BitVec 16) (s : State) (r : Reg) : Word :=
  let regs := (blockRegs list).1
  let n := (blockRegs list).2
  if r = rn ∧ w ∧ regs.head? ≠ some r then (blockTable p u (s.readReg rn) n).2
  else if r = 15 then storedReg s 15
  else if ub then s.readBank .usr r
  else s.readReg r

/-- The words of a block store, the base written back, and the pc (R344). -/
def BlockStored (p u ub w : Bool) (rn : Reg) (list : BitVec 16) (s t : State) : Prop :=
  let regs := (blockRegs list).1
  let n := (blockRegs list).2
  let start := (blockTable p u (s.readReg rn) n).1
  let back := (blockTable p u (s.readReg rn) n).2
  (∀ (k : Nat) (r : Reg), regs[k]? = some r → StoredBytes t (blockWord start k) 4 (blockValue p u ub w rn list s r)) ∧
    (w = true → rn ≠ 15 → t.readReg rn = back) ∧
    t.pc = (if w ∧ rn = 15 then s.alignPc back else s.pc + s.ilen)

/-- No word of a block store is a prefetch hazard. -/
def BlockStoreAllowed (p u : Bool) (rn : Reg) (list : BitVec 16) (s : State) : Prop :=
  let regs := (blockRegs list).1
  let n := (blockRegs list).2
  ∀ k : Nat, k < regs.length → NoHazard s (blockWord (blockTable p u (s.readReg rn) n).1 k) 4

/-- The base is listed, written back, and not the lowest listed register (R345). -/
def baseNotLowest (w : Bool) (rn : Reg) (list : BitVec 16) : Bool :=
  w && (blockRegs list).1.contains rn && (blockRegs list).1.head? != some rn

/-! ## Cycles -/

/-- What an instruction that goes on charges before its refill, and whether it writes R15 and so pays the refill (R730). -/
structure Charges where
  cycles : Word
  refill : Bool
  deriving DecidableEq, Repr

/-- `Data(a, w, k)` with the wait-state register of a state (R130, R730). -/
def dataCost (s : State) (a : Word) (w : Width) (k : AccessClass) : Word := waitCost s.config (regionClass a) w k s.waitcnt

/-- `Code(k)` at an address, in the set in force (R730). -/
def fetchCost (s : State) (a : Word) (k : AccessClass) : Word := dataCost s a (if s.thumb then .w16 else .w32) k

/-- `Refill` in the state an instruction leaves: two fetches at its pc, in its set (R730). -/
def refillCost (t : State) : Word := fetchCost t t.pc .N + fetchCost t (t.pc + t.ilen) .S

/-- `m`: the bytes of the multiplier up to the highest that is not all zeros, or, where ones count, all ones (R732). -/
def multiplierSteps (ones : Bool) (v : Word) : Word :=
  let fits := fun n : Nat => decide (v.toNat < 2 ^ n) || (ones && decide (2 ^ 32 - 2 ^ n ≤ v.toNat))
  if fits 8 then 1 else if fits 16 then 2 else if fits 24 then 3 else 4

/-- `Code(S)` and some internal cycles: data processing, PSR transfers, multiplies, branches and SWI (R731, R733, R739 to R743). -/
def codeCharges (writesPc : Bool) (extra : Word) (s : State) : Charges := ⟨fetchCost s s.pc .S + extra, writesPc⟩

/-- A single load at an address (R734). -/
def loadAtCharges (k : LoadKind) (a : Word) (writesPc : Bool) (s : State) : Charges :=
  ⟨fetchCost s s.pc .S + dataCost s a k.width .N + 1, writesPc⟩

/-- A single store at an address, charged with the wait-state register before it (R735, assumption 14). -/
def storeAtCharges (k : StoreKind) (a : Word) (writesPc : Bool) (s : State) : Charges :=
  ⟨fetchCost s s.pc .N + dataCost s a k.width .N, writesPc⟩

/-- A load by base and offset: it writes R15 as Rd or as a written-back base (R245, R248, R249). -/
def loadCharges (k : LoadKind) (p u w : Bool) (rn rd : Reg) (off : Word) (s : State) : Charges :=
  loadAtCharges k (transferAddr p u rn off s) (rd = 15 || (!p || w) && rn = 15) s

/-- A store by base and offset. -/
def storeCharges (k : StoreKind) (p u w : Bool) (rn : Reg) (off : Word) (s : State) : Charges :=
  storeAtCharges k (transferAddr p u rn off s) ((!p || w) && rn = 15) s

/-- LDM: its words, the first N and the rest S, and an internal cycle (R736). -/
def ldmCharges (p u w : Bool) (rn : Reg) (list : BitVec 16) (s : State) : Charges :=
  let regs := (blockRegs list).1
  let start := (blockTable p u (s.readReg rn) (blockRegs list).2).1
  let word := fun k : Nat => dataCost s (blockWord start k) .w32 (if k = 0 then .N else .S)
  ⟨fetchCost s s.pc .S + ((List.range regs.length).map word).sum + 1, regs.contains 15 || (w && rn = 15)⟩

/-- The words of an STM from `a` up, each charged with the wait-state register the words before it left (R83, R737, assumption 14). -/
def storedWordsCost (cfg : Config) (value : Reg → Word) : Half → Word → AccessClass → List Reg → Word
  | _, _, _, [] => 0
  | wc, a, k, r :: rest =>
    let a4 := a &&& 0xFFFFFFFC#32
    waitCost cfg (regionClass a4) .w32 k wc +
      storedWordsCost cfg value (if a4 = 0x04000204#32 then (value r).extractLsb' 0 16 &&& 0x5FFF#16 else wc) (a + 4) .S rest

/-- STM (R737). -/
def stmCharges (p u ub w : Bool) (rn : Reg) (list : BitVec 16) (s : State) : Charges :=
  let start := (blockTable p u (s.readReg rn) (blockRegs list).2).1
  ⟨fetchCost s s.pc .N + storedWordsCost s.config (blockValue p u ub w rn list s) s.waitcnt start .N (blockRegs list).1, w && rn = 15⟩

/-- SWP and SWPB: the read and the write, both charged before the write (R738, assumption 14). -/
def swapCharges (width : Width) (rn rd : Reg) (s : State) : Charges :=
  let a := s.readReg rn
  ⟨fetchCost s s.pc .S + dataCost s a width .N + dataCost s a width .N + 1, rd = 15⟩

/-- What each instruction charges when its condition holds and it goes on (R731 to R743). Thumb CMP of R15 pays no refill (assumption
22). -/
def charges (i : Instr) (s : State) : Charges :=
  match i with
  | .andImm _ _ _ rd _ _ => codeCharges (rd = 15) 0 s
  | .andShimm _ _ _ rd _ _ _ => codeCharges (rd = 15) 0 s
  | .andShreg _ _ _ rd _ _ _ => codeCharges (rd = 15) 1 s
  | .eorImm _ _ _ rd _ _ => codeCharges (rd = 15) 0 s
  | .eorShimm _ _ _ rd _ _ _ => codeCharges (rd = 15) 0 s
  | .eorShreg _ _ _ rd _ _ _ => codeCharges (rd = 15) 1 s
  | .subImm _ _ _ rd _ _ => codeCharges (rd = 15) 0 s
  | .subShimm _ _ _ rd _ _ _ => codeCharges (rd = 15) 0 s
  | .subShreg _ _ _ rd _ _ _ => codeCharges (rd = 15) 1 s
  | .rsbImm _ _ _ rd _ _ => codeCharges (rd = 15) 0 s
  | .rsbShimm _ _ _ rd _ _ _ => codeCharges (rd = 15) 0 s
  | .rsbShreg _ _ _ rd _ _ _ => codeCharges (rd = 15) 1 s
  | .addImm _ _ _ rd _ _ => codeCharges (rd = 15) 0 s
  | .addShimm _ _ _ rd _ _ _ => codeCharges (rd = 15) 0 s
  | .addShreg _ _ _ rd _ _ _ => codeCharges (rd = 15) 1 s
  | .adcImm _ _ _ rd _ _ => codeCharges (rd = 15) 0 s
  | .adcShimm _ _ _ rd _ _ _ => codeCharges (rd = 15) 0 s
  | .adcShreg _ _ _ rd _ _ _ => codeCharges (rd = 15) 1 s
  | .sbcImm _ _ _ rd _ _ => codeCharges (rd = 15) 0 s
  | .sbcShimm _ _ _ rd _ _ _ => codeCharges (rd = 15) 0 s
  | .sbcShreg _ _ _ rd _ _ _ => codeCharges (rd = 15) 1 s
  | .rscImm _ _ _ rd _ _ => codeCharges (rd = 15) 0 s
  | .rscShimm _ _ _ rd _ _ _ => codeCharges (rd = 15) 0 s
  | .rscShreg _ _ _ rd _ _ _ => codeCharges (rd = 15) 1 s
  | .tstImm _ _ _ _ _ => codeCharges false 0 s
  | .tstShimm _ _ _ _ _ _ => codeCharges false 0 s
  | .tstShreg _ _ _ _ _ _ => codeCharges false 1 s
  | .teqImm _ _ _ _ _ => codeCharges false 0 s
  | .teqShimm _ _ _ _ _ _ => codeCharges false 0 s
  | .teqShreg _ _ _ _ _ _ => codeCharges false 1 s
  | .cmpImm _ _ _ _ _ => codeCharges false 0 s
  | .cmpShimm _ _ _ _ _ _ => codeCharges false 0 s
  | .cmpShreg _ _ _ _ _ _ => codeCharges false 1 s
  | .cmnImm _ _ _ _ _ => codeCharges false 0 s
  | .cmnShimm _ _ _ _ _ _ => codeCharges false 0 s
  | .cmnShreg _ _ _ _ _ _ => codeCharges false 1 s
  | .orrImm _ _ _ rd _ _ => codeCharges (rd = 15) 0 s
  | .orrShimm _ _ _ rd _ _ _ => codeCharges (rd = 15) 0 s
  | .orrShreg _ _ _ rd _ _ _ => codeCharges (rd = 15) 1 s
  | .movImm _ _ _ rd _ _ => codeCharges (rd = 15) 0 s
  | .movShimm _ _ _ rd _ _ _ => codeCharges (rd = 15) 0 s
  | .movShreg _ _ _ rd _ _ _ => codeCharges (rd = 15) 1 s
  | .bicImm _ _ _ rd _ _ => codeCharges (rd = 15) 0 s
  | .bicShimm _ _ _ rd _ _ _ => codeCharges (rd = 15) 0 s
  | .bicShreg _ _ _ rd _ _ _ => codeCharges (rd = 15) 1 s
  | .mvnImm _ _ _ rd _ _ => codeCharges (rd = 15) 0 s
  | .mvnShimm _ _ _ rd _ _ _ => codeCharges (rd = 15) 0 s
  | .mvnShreg _ _ _ rd _ _ _ => codeCharges (rd = 15) 1 s
  | .mrs _ _ rd => codeCharges (rd = 15) 0 s
  | .msrReg _ _ _ _ => codeCharges false 0 s
  | .msrImm _ _ _ _ _ => codeCharges false 0 s
  | .mul _ _ rd rs _ => codeCharges (rd = 15) (multiplierSteps true (s.readReg rs)) s
  | .mla _ _ rd _ rs _ => codeCharges (rd = 15) (multiplierSteps true (s.readReg rs) + 1) s
  | .umull _ _ rdHi rdLo rs _ => codeCharges (rdHi = 15 || rdLo = 15) (multiplierSteps false (s.readReg rs) + 1) s
  | .umlal _ _ rdHi rdLo rs _ => codeCharges (rdHi = 15 || rdLo = 15) (multiplierSteps false (s.readReg rs) + 2) s
  | .smull _ _ rdHi rdLo rs _ => codeCharges (rdHi = 15 || rdLo = 15) (multiplierSteps true (s.readReg rs) + 1) s
  | .smlal _ _ rdHi rdLo rs _ => codeCharges (rdHi = 15 || rdLo = 15) (multiplierSteps true (s.readReg rs) + 2) s
  | .swp _ rn rd _ => swapCharges .w32 rn rd s
  | .swpb _ rn rd _ => swapCharges .w8 rn rd s
  | .bx _ _ => codeCharges true 0 s
  | .strImm _ p u w rn _ imm => storeCharges .word p u w rn (imm.zeroExtend 32) s
  | .strReg _ p u w rn _ amount ty rm => storeCharges .word p u w rn (shiftImm ty amount (s.readReg rm) s.flagC).value s
  | .strtImm _ u rn _ imm => storeCharges .word false u true rn (imm.zeroExtend 32) s
  | .strtReg _ u rn _ amount ty rm => storeCharges .word false u true rn (shiftImm ty amount (s.readReg rm) s.flagC).value s
  | .ldrImm _ p u w rn rd imm => loadCharges .word p u w rn rd (imm.zeroExtend 32) s
  | .ldrReg _ p u w rn rd amount ty rm => loadCharges .word p u w rn rd (shiftImm ty amount (s.readReg rm) s.flagC).value s
  | .ldrtImm _ u rn rd imm => loadCharges .word false u true rn rd (imm.zeroExtend 32) s
  | .ldrtReg _ u rn rd amount ty rm => loadCharges .word false u true rn rd (shiftImm ty amount (s.readReg rm) s.flagC).value s
  | .strbImm _ p u w rn _ imm => storeCharges .byte p u w rn (imm.zeroExtend 32) s
  | .strbReg _ p u w rn _ amount ty rm => storeCharges .byte p u w rn (shiftImm ty amount (s.readReg rm) s.flagC).value s
  | .strbtImm _ u rn _ imm => storeCharges .byte false u true rn (imm.zeroExtend 32) s
  | .strbtReg _ u rn _ amount ty rm => storeCharges .byte false u true rn (shiftImm ty amount (s.readReg rm) s.flagC).value s
  | .ldrbImm _ p u w rn rd imm => loadCharges .byte p u w rn rd (imm.zeroExtend 32) s
  | .ldrbReg _ p u w rn rd amount ty rm => loadCharges .byte p u w rn rd (shiftImm ty amount (s.readReg rm) s.flagC).value s
  | .ldrbtImm _ u rn rd imm => loadCharges .byte false u true rn rd (imm.zeroExtend 32) s
  | .ldrbtReg _ u rn rd amount ty rm => loadCharges .byte false u true rn rd (shiftImm ty amount (s.readReg rm) s.flagC).value s
  | .strhImm _ p u w rn _ imm => storeCharges .half p u w rn (imm.zeroExtend 32) s
  | .strhReg _ p u w rn _ rm => storeCharges .half p u w rn (s.readReg rm) s
  | .ldrhImm _ p u w rn rd imm => loadCharges .half p u w rn rd (imm.zeroExtend 32) s
  | .ldrhReg _ p u w rn rd rm => loadCharges .half p u w rn rd (s.readReg rm) s
  | .ldrsbImm _ p u w rn rd imm => loadCharges .signedByte p u w rn rd (imm.zeroExtend 32) s
  | .ldrsbReg _ p u w rn rd rm => loadCharges .signedByte p u w rn rd (s.readReg rm) s
  | .ldrshImm _ p u w rn rd imm => loadCharges .signedHalf p u w rn rd (imm.zeroExtend 32) s
  | .ldrshReg _ p u w rn rd rm => loadCharges .signedHalf p u w rn rd (s.readReg rm) s
  | .ldmia _ _ w rn list => ldmCharges false true w rn list s
  | .stmia _ ub w rn list => stmCharges false true ub w rn list s
  | .ldmib _ _ w rn list => ldmCharges true true w rn list s
  | .stmib _ ub w rn list => stmCharges true true ub w rn list s
  | .ldmda _ _ w rn list => ldmCharges false false w rn list s
  | .stmda _ ub w rn list => stmCharges false false ub w rn list s
  | .ldmdb _ _ w rn list => ldmCharges true false w rn list s
  | .stmdb _ ub w rn list => stmCharges true false ub w rn list s
  | .b _ _ => codeCharges true 0 s
  | .bl _ _ => codeCharges true 0 s
  | .swi _ _ => codeCharges true 0 s
  | .tLslImm _ _ _ => codeCharges false 0 s
  | .tLsrImm _ _ _ => codeCharges false 0 s
  | .tAsrImm _ _ _ => codeCharges false 0 s
  | .tAddReg _ _ _ => codeCharges false 0 s
  | .tSubReg _ _ _ => codeCharges false 0 s
  | .tAddImm3 _ _ _ => codeCharges false 0 s
  | .tSubImm3 _ _ _ => codeCharges false 0 s
  | .tMovImm _ _ => codeCharges false 0 s
  | .tCmpImm _ _ => codeCharges false 0 s
  | .tAddImm8 _ _ => codeCharges false 0 s
  | .tSubImm8 _ _ => codeCharges false 0 s
  | .tAnd _ _ => codeCharges false 0 s
  | .tEor _ _ => codeCharges false 0 s
  | .tLslReg _ _ => codeCharges false 1 s
  | .tLsrReg _ _ => codeCharges false 1 s
  | .tAsrReg _ _ => codeCharges false 1 s
  | .tAdc _ _ => codeCharges false 0 s
  | .tSbc _ _ => codeCharges false 0 s
  | .tRor _ _ => codeCharges false 1 s
  | .tTst _ _ => codeCharges false 0 s
  | .tNeg _ _ => codeCharges false 0 s
  | .tCmpReg _ _ => codeCharges false 0 s
  | .tCmn _ _ => codeCharges false 0 s
  | .tOrr _ _ => codeCharges false 0 s
  | .tMul _ rd => codeCharges false (multiplierSteps true (s.readReg (lo rd))) s
  | .tBic _ _ => codeCharges false 0 s
  | .tMvn _ _ => codeCharges false 0 s
  | .tAddHi h1 _ _ rd => codeCharges (hiReg h1 rd = 15) 0 s
  | .tCmpHi _ _ _ _ => codeCharges false 0 s
  | .tMovHi h1 _ _ rd => codeCharges (hiReg h1 rd = 15) 0 s
  | .tBx _ _ _ _ => codeCharges true 0 s
  | .tLdrPc _ imm => loadAtCharges .word (((s.pc + 4) &&& 0xFFFFFFFC#32) + BitVec.ofNat 32 (4 * imm.toNat)) false s
  | .tStrReg ro rb _ => storeAtCharges .word (s.readReg (lo rb) + s.readReg (lo ro)) false s
  | .tStrbReg ro rb _ => storeAtCharges .byte (s.readReg (lo rb) + s.readReg (lo ro)) false s
  | .tLdrReg ro rb _ => loadAtCharges .word (s.readReg (lo rb) + s.readReg (lo ro)) false s
  | .tLdrbReg ro rb _ => loadAtCharges .byte (s.readReg (lo rb) + s.readReg (lo ro)) false s
  | .tStrhReg ro rb _ => storeAtCharges .half (s.readReg (lo rb) + s.readReg (lo ro)) false s
  | .tLdsb ro rb _ => loadAtCharges .signedByte (s.readReg (lo rb) + s.readReg (lo ro)) false s
  | .tLdrhReg ro rb _ => loadAtCharges .half (s.readReg (lo rb) + s.readReg (lo ro)) false s
  | .tLdsh ro rb _ => loadAtCharges .signedHalf (s.readReg (lo rb) + s.readReg (lo ro)) false s
  | .tStrImm imm rb _ => storeAtCharges .word (s.readReg (lo rb) + BitVec.ofNat 32 (4 * imm.toNat)) false s
  | .tLdrImm imm rb _ => loadAtCharges .word (s.readReg (lo rb) + BitVec.ofNat 32 (4 * imm.toNat)) false s
  | .tStrbImm imm rb _ => storeAtCharges .byte (s.readReg (lo rb) + BitVec.ofNat 32 (1 * imm.toNat)) false s
  | .tLdrbImm imm rb _ => loadAtCharges .byte (s.readReg (lo rb) + BitVec.ofNat 32 (1 * imm.toNat)) false s
  | .tStrhImm imm rb _ => storeAtCharges .half (s.readReg (lo rb) + BitVec.ofNat 32 (2 * imm.toNat)) false s
  | .tLdrhImm imm rb _ => loadAtCharges .half (s.readReg (lo rb) + BitVec.ofNat 32 (2 * imm.toNat)) false s
  | .tStrSp _ imm => storeAtCharges .word (s.readReg 13 + BitVec.ofNat 32 (4 * imm.toNat)) false s
  | .tLdrSp _ imm => loadAtCharges .word (s.readReg 13 + BitVec.ofNat 32 (4 * imm.toNat)) false s
  | .tAddPc _ _ => codeCharges false 0 s
  | .tAddSp _ _ => codeCharges false 0 s
  | .tAddSpImm _ => codeCharges false 0 s
  | .tSubSpImm _ => codeCharges false 0 s
  | .tPush lr list => stmCharges true false false true 13 ((if lr then 0x4000#16 else 0) ||| list.zeroExtend 16) s
  | .tPop pc list => ldmCharges false true true 13 ((if pc then 0x8000#16 else 0) ||| list.zeroExtend 16) s
  | .tStmia rb list => stmCharges false true false true (lo rb) (list.zeroExtend 16) s
  | .tLdmia rb list => ldmCharges false true true (lo rb) (list.zeroExtend 16) s
  | .tBcond _ _ => codeCharges true 0 s
  | .tSwi _ => codeCharges true 0 s
  | .tB _ => codeCharges true 0 s
  | .tBlHi _ => codeCharges false 0 s
  | .tBlLo _ => codeCharges true 0 s

/-! ## Exceptions and steps -/

/-- What taking an exception leaves (R610, R614). -/
structure EnteredException (s t : State) (m : Mode) (vector link : Word) (setF : Bool) : Prop where
  pc : t.pc = vector
  mode : t.mode = m
  link : t.readBank m 14 = link
  saved : t.spsrOf m = some (s.cpsr &&& psrImplemented)
  flags : SameFlags s t
  irqMasked : psrI t.cpsr = true
  fiqMasked : psrF t.cpsr = (setF || psrF s.cpsr)
  arm : t.thumb = false
  registers : ∀ r, r ≠ .pc → r ≠ phys 14 m → t.readPhys r = s.readPhys r
  spsrs : ∀ m', m' ≠ m → t.spsrOf m' = s.spsrOf m'
  waitcnt : t.waitcnt = s.waitcnt

/-- Two states that agree but for the cycle clock, its last output, and the two parameters that only cost cycles (R130, R744). -/
def SameButTiming (s u : State) : Prop :=
  u = { s with
    cycles := u.cycles
    cyclesOut := u.cyclesOut
    config := { s.config with waitTable := u.config.waitTable, condFailCycles := u.config.condFailCycles } }

/-- The next step samples no interrupt (R605). -/
def NoInterrupt (s : State) : Prop :=
  let inp := s.env.headD {}
  (s.config.fiqPresent = true → inp.fiq = true → psrF s.cpsr = true) ∧ (inp.irq = true → psrI s.cpsr = true)

/-- The raw instruction of the set in force stands at the pc once the collaborators have written (R106, R118, R125). -/
def CodeAtPc (s : State) (c : Code) : Prop :=
  (c.isa = if s.thumb then .thumb else .arm) ∧
    ∀ (k : Nat) (h : k < c.bytes.length), s.afterInput.mem.byte (s.pc + BitVec.ofNat 32 k) = c.bytes[k]

end Sys2Proof.Machine
end

