-- ==== Sys2Proof/Certificates/Slice0/Obligations.lean ====
section
/-! DEFINITION. The statements for the provers. Each docstring names the rules of spec/ a statement formalises or rests on; a clause that
is this model's own choice names its assumption. -/

section Statements

open Sys2Proof Sys2Proof.Machine

/-! ## Encodings -/

/-- R150 to R164: decoding the word of a well-formed ARM instruction gives the instruction back, with every field at every value. -/
def Obligations.DecodeEncodeArm : Prop :=
  ∀ i : Instr, i.wf = true → i.isa = .arm → ∃ w, encode i = .arm w ∧ decode (.arm w) = .instr i

/-- R180, R190: decoding the halfword of a well-formed Thumb instruction gives the instruction back, with every field at every value. -/
def Obligations.DecodeEncodeThumb : Prop :=
  ∀ i : Instr, i.wf = true → i.isa = .thumb → ∃ h, encode i = .thumb h ∧ decode (.thumb h) = .instr i

/-- R161, R190: what a raw instruction decodes to is a well-formed instruction of its own set. -/
def Obligations.DecodedWellFormed : Prop :=
  ∀ (c : Code) (i : Instr), decode c = .instr i → i.wf = true ∧ i.isa = c.isa

/-- R170, R171: the ARM words that decode to an error, by their index, each reported with the word and the index (R162). -/
def Obligations.ArmUndefinedWords : Prop :=
  ∀ w : Word,
    let hi := w.extractLsb' 20 8
    let lo := w.extractLsb' 4 4
    let undefined :=
      (hi.extractLsb' 5 3 = 0b011#3 ∧ lo.getLsbD 0 = true) ∨
      (hi.extractLsb' 5 3 = 0b000#3 ∧ lo = 0b1001#4 ∧ hi.getLsbD 4 = true ∧ (hi.getLsbD 3 = true ∨ hi.getLsbD 1 = true ∨ hi.getLsbD 0 = true)) ∨
      (hi.extractLsb' 5 3 = 0b000#3 ∧ lo = 0b1001#4 ∧ hi.extractLsb' 2 3 = 0b001#3) ∨
      (hi.extractLsb' 5 3 = 0b000#3 ∧ (lo = 0b1101#4 ∨ lo = 0b1111#4) ∧ hi.getLsbD 0 = false) ∨
      (hi.extractLsb' 5 3 = 0b000#3 ∧ (lo = 0b1011#4 ∨ lo = 0b1101#4 ∨ lo = 0b1111#4) ∧ hi.getLsbD 4 = false ∧ hi.getLsbD 1 = true) ∨
      (hi.extractLsb' 3 5 = 0b00010#5 ∧ hi.getLsbD 0 = false ∧ (lo.getLsbD 3 = false ∨ lo.getLsbD 0 = false) ∧ lo ≠ 0b0000#4 ∧
        (hi ≠ 0b00010010#8 ∨ lo ≠ 0b0001#4)) ∨
      (hi.extractLsb' 3 5 = 0b00110#5 ∧ hi.extractLsb' 0 2 = 0b00#2) ∨
      hi.extractLsb' 5 3 = 0b110#3 ∨ hi.extractLsb' 4 4 = 0b1110#4
    (undefined → decode (.arm w) = .undefined w (hi ++ lo) .arm) ∧ (¬ undefined → ∃ i, decode (.arm w) = .instr i)

/-- R192: the undefined Thumb halfwords, each reported with the halfword and its high byte (R191). -/
def Obligations.ThumbUndefinedHalfwords : Prop :=
  ∀ h : Half,
    let top := (h.extractLsb' 8 8).toNat
    let undefined :=
      (0xB1 ≤ top ∧ top ≤ 0xB3) ∨ (0xB6 ≤ top ∧ top ≤ 0xBB) ∨ (0xBE ≤ top ∧ top ≤ 0xBF) ∨ top = 0xDE ∨ (0xE8 ≤ top ∧ top ≤ 0xEF)
    (undefined → decode (.thumb h) = .undefined (h.zeroExtend 32) ((h.extractLsb' 8 8).zeroExtend 12) .thumb) ∧
      (¬ undefined → ∃ i, decode (.thumb h) = .instr i)

/-- Words written out from the encodings of 30_encoding.md, with the example words of files 41 to 46, decode to what they stand for. -/
def Obligations.DecodeExampleWords : Prop :=
  decode (.arm 0xE0110002#32) = .instr (.andShimm .al true 1 0 0 .lsl 2) ∧
  decode (.arm 0xE2710000#32) = .instr (.rsbImm .al true 1 0 0 0) ∧
  decode (.arm 0xE10F0000#32) = .instr (.mrs .al false 0) ∧
  decode (.arm 0xE169F000#32) = .instr (.msrReg .al true ⟨true, false, false, true⟩ 0) ∧
  decode (.arm 0xE0203291#32) = .instr (.mla .al false 0 3 2 1) ∧
  decode (.arm 0xE0C10392#32) = .instr (.smull .al false 1 0 3 2) ∧
  decode (.arm 0xE5210004#32) = .instr (.strImm .al true false true 1 0 4) ∧
  decode (.arm 0xE1D100F2#32) = .instr (.ldrshImm .al true true false 1 0 2) ∧
  decode (.arm 0xE8B0001E#32) = .instr (.ldmia .al false true 0 0x001E#16) ∧
  decode (.arm 0xE1420091#32) = .instr (.swpb .al 2 0 1) ∧
  decode (.arm 0xEAFFFFFE#32) = .instr (.b .al 0xFFFFFE#24) ∧
  decode (.arm 0xE12FFF10#32) = .instr (.bx .al 0) ∧
  decode (.arm 0xEF000012#32) = .instr (.swi .al 0x12#24) ∧
  decode (.thumb 0x1CC8#16) = .instr (.tAddImm3 3 1 0) ∧
  decode (.thumb 0x4640#16) = .instr (.tMovHi false true 0 0) ∧
  decode (.thumb 0xBD01#16) = .instr (.tPop true 1) ∧
  decode (.thumb 0xD1FC#16) = .instr (.tBcond .ne 0xFC#8) ∧
  decode (.thumb 0xF87E#16) = .instr (.tBlLo 0x07E#11)

/-! ## The step -/

/-- R12, R118: with no interrupt to take, a step at an aligned pc is `exec` of the instruction whose bytes stand there, in the state the
collaborators left. The drain of the cycle clock into `cyclesOut` is assumption 6. -/
def Obligations.StepRunsDecoded : Prop :=
  ∀ (s : State) (c : Code) (i : Instr),
    NoInterrupt s → s.alignPc s.pc = s.pc → CodeAtPc s c → decodeBytes c.isa c.bytes = some (.instr i, []) →
    step s =
      match exec i s.afterInput with
      | .next t => .next { t with cyclesOut := t.cycles, cycles := 0 }
      | .fault r => .fault r
      | .refused r => .refused r

/-- R162, R191: with no interrupt to take, an undefined encoding at the pc ends the step with a decode error. -/
def Obligations.StepStopsUndefined : Prop :=
  ∀ (s : State) (c : Code) (raw : Word) (index : BitVec 12) (isa : Isa),
    NoInterrupt s → s.alignPc s.pc = s.pc → CodeAtPc s c → decodeBytes c.isa c.bytes = some (.undefined raw index isa, []) →
    step s = .fault (.decodeError raw index isa)

/-- R605, R612 to R615: an FIQ input that is there, asserted and not masked is taken, before an IRQ input; the entry executes nothing. The
inputs as a list in State are assumption 5. -/
def Obligations.InterruptEntry : Prop :=
  ∀ s : State,
    let inp := s.env.headD {}
    let fiq := s.config.fiqPresent = true ∧ inp.fiq = true ∧ psrF s.cpsr = false
    let irq := inp.irq = true ∧ psrI s.cpsr = false
    (fiq → ∃ t, step s = .next t ∧ EnteredException s t .fiq 0x1C (s.pc + 4) true ∧
      t.mem = collaboratorWrites inp.writes s.mem) ∧
    (¬ fiq → irq → ∃ t, step s = .next t ∧ EnteredException s t .irq 0x18 (s.pc + 4) false ∧
      t.mem = collaboratorWrites inp.writes s.mem) ∧
    (¬ fiq → ¬ irq → NoInterrupt s)

/-! ## Conditions, the ALU and the shifter -/

/-- R221, R744: a false condition leaves everything but the pc and the cycle clock as it was; condition `0b1111` is false, or a fault. -/
def Obligations.ConditionFails : Prop :=
  ∀ (i : Instr) (s : State),
    (condOf i = .nv → s.config.nvCond = .fault → exec i s = .fault .neverCondition) ∧
    ((condOf i = .nv → s.config.nvCond = .never) → s.condPasses (condOf i) = false →
      exec i s = .next { s with
        pc := s.pc + s.ilen
        cycles := s.cycles +
          match s.config.condFailCycles with
          | .zero => 0
          | .oneS => waitCost s.config (regionClass s.pc) (if s.thumb then .w16 else .w32) .S s.waitcnt })

/-- R220: the test of each condition, and what it means after the flags of a comparison `a - b` (R264, R278). -/
def Obligations.ConditionsAfterCompare : Prop :=
  ∀ a b : Word,
    let r := alu .cmp a ⟨b, false⟩ false false
    let test := fun c => condHolds c r.res.msb (r.res == 0) r.carry r.overflow
    (test .eq = decide (a = b)) ∧ (test .ne = decide (a ≠ b)) ∧
    (test .cs = decide (b.toNat ≤ a.toNat)) ∧ (test .cc = decide (a.toNat < b.toNat)) ∧
    (test .hi = decide (b.toNat < a.toNat)) ∧ (test .ls = decide (a.toNat ≤ b.toNat)) ∧
    (test .ge = decide (b.toInt ≤ a.toInt)) ∧ (test .lt = decide (a.toInt < b.toInt)) ∧
    (test .gt = decide (b.toInt < a.toInt)) ∧ (test .le = decide (a.toInt ≤ b.toInt)) ∧
    (test .mi = (a - b).msb) ∧ (test .pl = !(a - b).msb) ∧
    (test .vs = decide (a.toInt - b.toInt ≠ (a - b).toInt)) ∧ (test .vc = decide (a.toInt - b.toInt = (a - b).toInt))

/-- R262: the 33-bit sum, its bit 32, and the overflow of the signed sum; a difference as the sum with the complement, with C = no borrow. -/
def Obligations.AddWithCarrySum : Prop :=
  ∀ (x y : Word) (cin : Bool),
    let s : BitVec 33 := x.zeroExtend 33 + y.zeroExtend 33 + (BitVec.ofBool cin).zeroExtend 33
    let r := addWithCarry x y cin
    r.res = s.extractLsb' 0 32 ∧ r.carry = s.getLsbD 32 ∧
    (r.overflow = true ↔ x.getLsbD 31 = y.getLsbD 31 ∧ r.res.getLsbD 31 ≠ x.getLsbD 31) ∧
    (r.overflow = true ↔ x.toInt + y.toInt + cin.toNat ≠ r.res.toInt) ∧
    (addWithCarry x (~~~y) true).res = x - y ∧ (addWithCarry x (~~~y) true).carry = decide (y.toNat ≤ x.toNat) ∧
    (addWithCarry x (~~~y) cin).res = x - y - BitVec.ofNat 32 (1 - cin.toNat)

/-- R260, R268 to R283: the result of each operation, and C and V: of the shifter and unchanged for a logical one (R263), of the exact sum or
difference for an arithmetic one (R264), where C of a difference is no borrow (R262). -/
def Obligations.AluResults : Prop :=
  ∀ (a b : Word) (shc c v : Bool),
    let run := fun op => alu op a ⟨b, shc⟩ c v
    let k : Nat := c.toNat
    (run .and = ⟨a &&& b, shc, v⟩) ∧ (run .tst = ⟨a &&& b, shc, v⟩) ∧
    (run .eor = ⟨a ^^^ b, shc, v⟩) ∧ (run .teq = ⟨a ^^^ b, shc, v⟩) ∧
    (run .orr = ⟨a ||| b, shc, v⟩) ∧ (run .mov = ⟨b, shc, v⟩) ∧
    (run .bic = ⟨a &&& ~~~b, shc, v⟩) ∧ (run .mvn = ⟨~~~b, shc, v⟩) ∧
    (∀ op, op = .add ∨ op = .cmn → run op = ⟨a + b, decide (2 ^ 32 ≤ a.toNat + b.toNat), decide (a.toInt + b.toInt ≠ (a + b).toInt)⟩) ∧
    (run .adc = ⟨a + b + BitVec.ofNat 32 k, decide (2 ^ 32 ≤ a.toNat + b.toNat + k),
      decide (a.toInt + b.toInt + k ≠ (a + b + BitVec.ofNat 32 k).toInt)⟩) ∧
    (∀ op, op = .sub ∨ op = .cmp → run op = ⟨a - b, decide (b.toNat ≤ a.toNat), decide (a.toInt - b.toInt ≠ (a - b).toInt)⟩) ∧
    (run .sbc = ⟨a - b - BitVec.ofNat 32 (1 - k), decide (b.toNat + (1 - k) ≤ a.toNat),
      decide (a.toInt - b.toInt - (1 - k : Nat) ≠ (a - b - BitVec.ofNat 32 (1 - k)).toInt)⟩) ∧
    (run .rsb = ⟨b - a, decide (a.toNat ≤ b.toNat), decide (b.toInt - a.toInt ≠ (b - a).toInt)⟩) ∧
    (run .rsc = ⟨b - a - BitVec.ofNat 32 (1 - k), decide (a.toNat + (1 - k) ≤ b.toNat),
      decide (b.toInt - a.toInt - (1 - k : Nat) ≠ (b - a - BitVec.ofNat 32 (1 - k)).toInt)⟩)

/-- R226 to R230: the immediate form of the shifter, bit by bit, with its carry-out. -/
def Obligations.ShifterImmediate : Prop :=
  ∀ (amount : BitVec 5) (v : Word) (c : Bool),
    let n := amount.toNat
    (shiftImm .lsl 0 v c = ⟨v, c⟩) ∧ (shiftImm .lsr 0 v c = ⟨0, v.getLsbD 31⟩) ∧
    (shiftImm .asr 0 v c = ⟨if v.getLsbD 31 then 0xFFFFFFFF#32 else 0, v.getLsbD 31⟩) ∧
    (shiftImm .ror 0 v c = ⟨(v >>> 1) ||| (if c then 0x80000000#32 else 0), v.getLsbD 0⟩) ∧
    (0 < n →
      (shiftImm .lsl amount v c).carry = v.getLsbD (32 - n) ∧ (shiftImm .lsr amount v c).carry = v.getLsbD (n - 1) ∧
      (shiftImm .asr amount v c).carry = v.getLsbD (n - 1) ∧ (shiftImm .ror amount v c).carry = v.getLsbD (n - 1) ∧
      ∀ i : Nat, i < 32 →
        (shiftImm .lsl amount v c).value.getLsbD i = (decide (n ≤ i) && v.getLsbD (i - n)) ∧
        (shiftImm .lsr amount v c).value.getLsbD i = (decide (i + n < 32) && v.getLsbD (i + n)) ∧
        (shiftImm .asr amount v c).value.getLsbD i = v.getLsbD (min (i + n) 31) ∧
        (shiftImm .ror amount v c).value.getLsbD i = v.getLsbD ((i + n) % 32))

/-- R231 to R235: the register form of the shifter at every amount. -/
def Obligations.ShifterRegister : Prop :=
  ∀ (ty : ShiftType) (a : BitVec 8) (v : Word) (c : Bool),
    let n := a.toNat
    let fill := if v.getLsbD 31 then 0xFFFFFFFF#32 else 0
    let k := BitVec.ofNat 5 n
    (n = 0 → shiftReg ty a v c = ⟨v, c⟩) ∧
    (0 < n → n < 32 → shiftReg ty a v c = shiftImm ty k v c) ∧
    (n = 32 → shiftReg .lsl a v c = ⟨0, v.getLsbD 0⟩ ∧ shiftReg .lsr a v c = ⟨0, v.getLsbD 31⟩) ∧
    (32 < n → shiftReg .lsl a v c = ⟨0, false⟩ ∧ shiftReg .lsr a v c = ⟨0, false⟩) ∧
    (32 ≤ n → shiftReg .asr a v c = ⟨fill, v.getLsbD 31⟩) ∧
    (32 ≤ n → n % 32 = 0 → shiftReg .ror a v c = ⟨v, v.getLsbD 31⟩) ∧
    (32 ≤ n → n % 32 ≠ 0 → shiftReg .ror a v c = shiftImm .ror k v c)

/-! ## ARM data processing -/

/-- R238, R261, R266, R267: the sixteen operations with an immediate operand2; the form that returns from an exception is
`ExceptionReturn`. -/
def Obligations.DataProcessingImmediate : Prop :=
  ∀ (op : AluOp) (cond : Cond) (sf : Bool) (rn rd : Reg) (rotate : BitVec 4) (imm : BitVec 8) (s : State),
    s.condPasses cond = true → (isTest op = false → sf = true → rd ≠ 15) →
    let value := (imm.zeroExtend 32).rotateRight (2 * rotate.toNat)
    Completes (dpImm op cond sf rn rd rotate imm) s
      (DpDone op sf rd (s.readReg rn) ⟨value, if rotate = 0 then s.flagC else value.getLsbD 31⟩ s)

/-- R239, R261, R266, R267: the sixteen operations with an immediate shift. -/
def Obligations.DataProcessingShift : Prop :=
  ∀ (op : AluOp) (cond : Cond) (sf : Bool) (rn rd : Reg) (amount : BitVec 5) (ty : ShiftType) (rm : Reg) (s : State),
    s.condPasses cond = true → (isTest op = false → sf = true → rd ≠ 15) →
    Completes (dpShimm op cond sf rn rd amount ty rm) s
      (DpDone op sf rd (s.readReg rn) (shiftImm ty amount (s.readReg rm) s.flagC) s)

/-- R231, R237, R239, R261: the sixteen operations with a register shift, where R15 reads at `PC_REGSHIFT_OFFSET`. -/
def Obligations.DataProcessingRegisterShift : Prop :=
  ∀ (op : AluOp) (cond : Cond) (sf : Bool) (rn rd rs : Reg) (ty : ShiftType) (rm : Reg) (s : State),
    s.condPasses cond = true → (isTest op = false → sf = true → rd ≠ 15) → Allowed s (rs = 15) →
    let read := fun n : Reg => if n = 15 then s.pc + PcOffset.value s.config.pcRegshiftOffset else s.readReg n
    Completes (dpShreg op cond sf rn rd rs ty rm) s
      (DpDone op sf rd (read rn) (shiftReg ty ((read rs).extractLsb' 0 8) (read rm) s.flagC) s)

/-- R265: a non-test operation with Rd = 15 and S = 1 returns from an exception: the CPSR is the SPSR, the pc the result aligned by the restored
T; an SPSR whose mode field names no mode faults (R57). -/
def Obligations.ExceptionReturn : Prop :=
  ∀ (op : AluOp) (cond : Cond) (rn : Reg) (s : State) (p : Word),
    s.condPasses cond = true → isTest op = false → s.spsr = some p →
    let returns := fun (i : Instr) (res : Word) =>
      ((Mode.ofBits? (p.extractLsb' 0 5)).isSome = true →
        Completes i s fun t =>
          t.cpsr = p ∧ t.pc = if p.getLsbD 5 then res &&& 0xFFFFFFFE#32 else res &&& 0xFFFFFFFC#32) ∧
      (Mode.ofBits? (p.extractLsb' 0 5) = none → exec i s = .fault (.invalidMode (p.extractLsb' 0 5)))
    let run := fun a o => (alu op a o s.flagC s.flagV).res
    (∀ (rotate : BitVec 4) (imm : BitVec 8),
      returns (dpImm op cond true rn 15 rotate imm)
        (run (s.readReg rn) ⟨(imm.zeroExtend 32).rotateRight (2 * rotate.toNat), s.flagC⟩)) ∧
    (∀ (amount : BitVec 5) (ty : ShiftType) (rm : Reg),
      returns (dpShimm op cond true rn 15 amount ty rm) (run (s.readReg rn) (shiftImm ty amount (s.readReg rm) s.flagC))) ∧
    (∀ (rs : Reg) (ty : ShiftType) (rm : Reg), Allowed s (rs = 15) →
      returns (dpShreg op cond true rn 15 rs ty rm)
        (run (s.readShiftReg rn) (shiftReg ty ((s.readShiftReg rs).extractLsb' 0 8) (s.readShiftReg rm) s.flagC)))

/-! ## Status-register transfer -/

/-- R284, R71: MRS reads the CPSR or the SPSR of the current mode, its reserved bits 0. -/
def Obligations.MoveFromStatus : Prop :=
  ∀ (cond : Cond) (rd : Reg) (s : State),
    s.condPasses cond = true → Allowed s (rd = 15) →
    Completes (.mrs cond false rd) s (fun t => WroteReg s t rd (s.cpsr &&& 0xF00000FF#32) ∧ SameFlags s t) ∧
    ∀ p, s.spsr = some p → Completes (.mrs cond true rd) s (fun t => WroteReg s t rd p ∧ SameFlags s t)

/-- R285 to R287, R57, R70: MSR to the CPSR writes the flags by `f`, and by `c` in a privileged mode I, F and the mode, never T; a value that
names no mode faults. -/
def Obligations.MoveToCpsr : Prop :=
  ∀ (cond : Cond) (mask : PsrMask) (s : State),
    s.condPasses cond = true →
    let done := fun (i : Instr) (v : Word) =>
      let control := mask.c && s.mode != .usr
      let m := if control then v.extractLsb' 0 5 else s.cpsr.extractLsb' 0 5
      (Mode.ofBits? m = none → exec i s = .fault (.invalidMode m)) ∧
      ((Mode.ofBits? m).isSome = true → Completes i s fun t =>
        (if mask.f then FlagsAre t (v.getLsbD 31) (v.getLsbD 30) (v.getLsbD 29) (v.getLsbD 28) else SameFlags s t) ∧
        psrI t.cpsr = (if control then v.getLsbD 7 else psrI s.cpsr) ∧ psrF t.cpsr = (if control then v.getLsbD 6 else psrF s.cpsr) ∧
        t.thumb = s.thumb ∧ psrM t.cpsr = m ∧ psrReserved t.cpsr = 0 ∧ t.pc = s.pc + s.ilen)
    (∀ rm, Allowed s (rm = 15) → done (.msrReg cond false mask rm) (s.readReg rm)) ∧
    ∀ (rotate : BitVec 4) (imm : BitVec 8),
      done (.msrImm cond false mask rotate imm) ((imm.zeroExtend 32).rotateRight (2 * rotate.toNat))

/-- R288: MSR to the SPSR of the current mode writes the flags by `f` and the whole control byte by `c`, and no other SPSR. -/
def Obligations.MoveToSpsr : Prop :=
  ∀ (cond : Cond) (mask : PsrMask) (s : State) (p : Word),
    s.condPasses cond = true → s.spsr = some p →
    let done := fun (i : Instr) (v : Word) => Completes i s fun t =>
      t.spsrOf s.mode = some ((if mask.f then v &&& 0xF0000000#32 else p &&& 0xF0000000#32) |||
        (if mask.c then v &&& 0xFF#32 else p &&& 0xFF#32)) ∧
      (∀ m, m ≠ s.mode → t.spsrOf m = s.spsrOf m) ∧ t.cpsr = s.cpsr ∧ t.pc = s.pc + s.ilen
    (∀ rm, Allowed s (rm = 15) → done (.msrReg cond true mask rm) (s.readReg rm)) ∧
    ∀ (rotate : BitVec 4) (imm : BitVec 8),
      done (.msrImm cond true mask rotate imm) ((imm.zeroExtend 32).rotateRight (2 * rotate.toNat))

/-- R62: in User and System mode every instruction that reads or writes the SPSR ends the step with `SpsrUnavailable`. -/
def Obligations.SpsrUnavailableInUserAndSystem : Prop :=
  ∀ (cond : Cond) (s : State),
    s.condPasses cond = true → s.mode = .usr ∨ s.mode = .sys →
    (∀ rd, exec (.mrs cond true rd) s = .fault .spsrUnavailable) ∧
    (∀ mask rm, exec (.msrReg cond true mask rm) s = .fault .spsrUnavailable) ∧
    (∀ mask rotate imm, exec (.msrImm cond true mask rotate imm) s = .fault .spsrUnavailable) ∧
    (∀ op rn rotate imm, isTest op = false → exec (dpImm op cond true rn 15 rotate imm) s = .fault .spsrUnavailable) ∧
    (∀ op rn amount ty rm, isTest op = false → exec (dpShimm op cond true rn 15 amount ty rm) s = .fault .spsrUnavailable) ∧
    (∀ op rn rs ty rm, isTest op = false → Allowed s (rs = 15) →
      exec (dpShreg op cond true rn 15 rs ty rm) s = .fault .spsrUnavailable) ∧
    (∀ p u w rn (list : BitVec 16), list.getLsbD 15 = true → exec (ldmOf p u cond true w rn list) s = .fault .spsrUnavailable)

/-! ## Multiply -/

/-- R300, R301, R303, R304: MUL and MLA leave the product, and the sum, modulo 2^32. -/
def Obligations.Multiply32 : Prop :=
  ∀ (cond : Cond) (sf : Bool) (rd rn rs rm : Reg) (s : State),
    s.condPasses cond = true →
    let product := (s.readReg rm).toNat * (s.readReg rs).toNat
    (Allowed s (rd = rm || rd = 15 || rm = 15 || rs = 15) →
      Completes (.mul cond sf rd rs rm) s (MulDone sf rd (BitVec.ofNat 32 product) s)) ∧
    (Allowed s (rd = rm || rd = 15 || rm = 15 || rs = 15 || rn = 15) →
      Completes (.mla cond sf rd rn rs rm) s (MulDone sf rd (BitVec.ofNat 32 (product + (s.readReg rn).toNat)) s))

/-- R300 to R302, R305 to R308: the long multiplies leave the unsigned or signed product, and the sum with the accumulator, modulo 2^64. -/
def Obligations.Multiply64 : Prop :=
  ∀ (cond : Cond) (sf : Bool) (rdHi rdLo rs rm : Reg) (s : State),
    s.condPasses cond = true →
    Allowed s (rdHi = rdLo || rdHi = rm || rdLo = rm || rdHi = 15 || rdLo = 15 || rm = 15 || rs = 15) →
    let unsigned := (s.readReg rm).toNat * (s.readReg rs).toNat
    let signed := (s.readReg rm).toInt * (s.readReg rs).toInt
    let acc := (s.readReg rdHi).toNat * 2 ^ 32 + (s.readReg rdLo).toNat
    Completes (.umull cond sf rdHi rdLo rs rm) s (MulLongDone sf rdHi rdLo (BitVec.ofNat 64 unsigned) s) ∧
    Completes (.umlal cond sf rdHi rdLo rs rm) s (MulLongDone sf rdHi rdLo (BitVec.ofNat 64 (unsigned + acc)) s) ∧
    Completes (.smull cond sf rdHi rdLo rs rm) s (MulLongDone sf rdHi rdLo (BitVec.ofInt 64 signed) s) ∧
    Completes (.smlal cond sf rdHi rdLo rs rm) s (MulLongDone sf rdHi rdLo (BitVec.ofInt 64 (signed + acc)) s)

/-! ## ARM single transfers -/

/-- R245, R246, R248, R249, R320 to R322, R326, R327: the word and byte loads. Where Rd and a written-back base are both R15 the pc is the
written-back base, as R249 says and R248 does not: assumption 8. -/
def Obligations.SingleLoads : Prop :=
  ∀ (cond : Cond) (p u w : Bool) (rn rd : Reg) (s : State),
    s.condPasses cond = true →
    let word := wordAt s
    let byte := fun a => (s.mem.byte a).zeroExtend 32
    let base := fun back : Bool => Allowed s (back && rn = 15)
    (∀ imm : BitVec 12,
      (base (!p || w) → Completes (.ldrImm cond p u w rn rd imm) s (LoadDone word p u w rn rd (imm.zeroExtend 32) s)) ∧
      (base true → Completes (.ldrtImm cond u rn rd imm) s (LoadDone word false u true rn rd (imm.zeroExtend 32) s)) ∧
      (base (!p || w) → Allowed s (rd = 15) →
        Completes (.ldrbImm cond p u w rn rd imm) s (LoadDone byte p u w rn rd (imm.zeroExtend 32) s)) ∧
      (base true → Allowed s (rd = 15) →
        Completes (.ldrbtImm cond u rn rd imm) s (LoadDone byte false u true rn rd (imm.zeroExtend 32) s))) ∧
    ∀ (amount : BitVec 5) (ty : ShiftType) (rm : Reg), Allowed s (rm = 15) →
      let off := (shiftImm ty amount (s.readReg rm) s.flagC).value
      (base (!p || w) → Completes (.ldrReg cond p u w rn rd amount ty rm) s (LoadDone word p u w rn rd off s)) ∧
      (base true → Completes (.ldrtReg cond u rn rd amount ty rm) s (LoadDone word false u true rn rd off s)) ∧
      (base (!p || w) → Allowed s (rd = 15) →
        Completes (.ldrbReg cond p u w rn rd amount ty rm) s (LoadDone byte p u w rn rd off s)) ∧
      (base true → Allowed s (rd = 15) →
        Completes (.ldrbtReg cond u rn rd amount ty rm) s (LoadDone byte false u true rn rd off s))

/-- R245, R246, R248, R320, R323 to R325, R328, R329: the word and byte stores. -/
def Obligations.SingleStores : Prop :=
  ∀ (cond : Cond) (p u w : Bool) (rn rd : Reg) (s : State),
    s.condPasses cond = true →
    let base := fun back : Bool => Allowed s (back && rn = 15)
    (∀ imm : BitVec 12,
      let off := imm.zeroExtend 32
      (base (!p || w) → StoreAllowed .word p u rn off s →
        Completes (.strImm cond p u w rn rd imm) s (StoreDone .word p u w rn rd off s)) ∧
      (base true → StoreAllowed .word false u rn off s →
        Completes (.strtImm cond u rn rd imm) s (StoreDone .word false u true rn rd off s)) ∧
      (base (!p || w) → Allowed s (rd = 15) → StoreAllowed .byte p u rn off s →
        Completes (.strbImm cond p u w rn rd imm) s (StoreDone .byte p u w rn rd off s)) ∧
      (base true → Allowed s (rd = 15) → StoreAllowed .byte false u rn off s →
        Completes (.strbtImm cond u rn rd imm) s (StoreDone .byte false u true rn rd off s))) ∧
    ∀ (amount : BitVec 5) (ty : ShiftType) (rm : Reg), Allowed s (rm = 15) →
      let off := (shiftImm ty amount (s.readReg rm) s.flagC).value
      (base (!p || w) → StoreAllowed .word p u rn off s →
        Completes (.strReg cond p u w rn rd amount ty rm) s (StoreDone .word p u w rn rd off s)) ∧
      (base true → StoreAllowed .word false u rn off s →
        Completes (.strtReg cond u rn rd amount ty rm) s (StoreDone .word false u true rn rd off s)) ∧
      (base (!p || w) → Allowed s (rd = 15) → StoreAllowed .byte p u rn off s →
        Completes (.strbReg cond p u w rn rd amount ty rm) s (StoreDone .byte p u w rn rd off s)) ∧
      (base true → Allowed s (rd = 15) → StoreAllowed .byte false u rn off s →
        Completes (.strbtReg cond u rn rd amount ty rm) s (StoreDone .byte false u true rn rd off s))

/-- R245, R247 to R249, R331, R333 to R335: the halfword and signed loads, with an odd halfword address by `MISALIGNED_HALF`. Where Rd and a
written-back base are both R15 the pc is the written-back base, as R249 says and R248 does not: assumption 8. -/
def Obligations.HalfwordLoads : Prop :=
  ∀ (cond : Cond) (p u w : Bool) (rn rd : Reg) (s : State),
    s.condPasses cond = true → Allowed s ((!p || w) && rn = 15) → Allowed s (rd = 15) →
    let odd := fun a : Word => a.getLsbD 0 = true ∧ s.config.misalignedHalf = .arm7
    let half := fun a =>
      if odd a then ((halfAt s (a &&& 0xFFFFFFFE#32)).zeroExtend 32).rotateRight 8 else (halfAt s a).zeroExtend 32
    let signedByte := fun a => (s.mem.byte a).signExtend 32
    let signedHalf := fun a => if odd a then (s.mem.byte a).signExtend 32 else (halfAt s a).signExtend 32
    (∀ imm : BitVec 8,
      Completes (.ldrhImm cond p u w rn rd imm) s (LoadDone half p u w rn rd (imm.zeroExtend 32) s) ∧
      Completes (.ldrsbImm cond p u w rn rd imm) s (LoadDone signedByte p u w rn rd (imm.zeroExtend 32) s) ∧
      Completes (.ldrshImm cond p u w rn rd imm) s (LoadDone signedHalf p u w rn rd (imm.zeroExtend 32) s)) ∧
    ∀ rm : Reg, Allowed s (rm = 15) →
      Completes (.ldrhReg cond p u w rn rd rm) s (LoadDone half p u w rn rd (s.readReg rm) s) ∧
      Completes (.ldrsbReg cond p u w rn rd rm) s (LoadDone signedByte p u w rn rd (s.readReg rm) s) ∧
      Completes (.ldrshReg cond p u w rn rd rm) s (LoadDone signedHalf p u w rn rd (s.readReg rm) s)

/-- R247, R325, R331, R332: STRH. -/
def Obligations.HalfwordStores : Prop :=
  ∀ (cond : Cond) (p u w : Bool) (rn rd : Reg) (s : State),
    s.condPasses cond = true → Allowed s ((!p || w) && rn = 15) → Allowed s (rd = 15) →
    (∀ imm : BitVec 8, StoreAllowed .half p u rn (imm.zeroExtend 32) s →
      Completes (.strhImm cond p u w rn rd imm) s (StoreDone .half p u w rn rd (imm.zeroExtend 32) s)) ∧
    ∀ rm : Reg, Allowed s (rm = 15) → StoreAllowed .half p u rn (s.readReg rm) s →
      Completes (.strhReg cond p u w rn rd rm) s (StoreDone .half p u w rn rd (s.readReg rm) s)

/-! ## Block transfers and swap -/

/-- R340 to R343, R346, R347, R349, R350: LDM without a return from exception: the listed registers, in the User bank when S = 1, and R15 last
as a branch. -/
def Obligations.BlockLoads : Prop :=
  ∀ (p u : Bool) (cond : Cond) (ub w : Bool) (rn : Reg) (list : BitVec 16) (s : State),
    s.condPasses cond = true → (list = 0 → s.config.emptyRlist = .arm7) → Allowed s (rn = 15) →
    (ub = true → 15 ∉ (blockRegs list).1) → Allowed s (ub && (s.mode == .usr || s.mode == .sys || w)) →
    Completes (ldmOf p u cond ub w rn list) s fun t =>
      BlockLoaded p u w (if ub then .usr else s.mode) rn list s t ∧ SameFlags s t ∧
      t.pc =
        if 15 ∈ (blockRegs list).1 then s.alignPc (blockPcWord p u rn list s)
        else if w ∧ rn = 15 then s.alignPc (blockTable p u (s.readReg rn) (blockRegs list).2).2
        else s.pc + s.ilen

/-- R352, R57: LDM with S = 1 and R15 listed loads the current bank and returns from an exception. That an empty list (with
`EMPTY_RLIST = arm7`), which moves R15 alone, returns in the same way is assumption 10. -/
def Obligations.BlockLoadReturns : Prop :=
  ∀ (p u : Bool) (cond : Cond) (w : Bool) (rn : Reg) (list : BitVec 16) (s : State) (psr : Word),
    s.condPasses cond = true → (list = 0 → s.config.emptyRlist = .arm7) → 15 ∈ (blockRegs list).1 → s.spsr = some psr →
    (Mode.ofBits? (psr.extractLsb' 0 5) = none → exec (ldmOf p u cond true w rn list) s = .fault (.invalidMode (psr.extractLsb' 0 5))) ∧
    ((Mode.ofBits? (psr.extractLsb' 0 5)).isSome = true → Allowed s (rn = 15) →
      Completes (ldmOf p u cond true w rn list) s fun t =>
        BlockLoaded p u w s.mode rn list s t ∧ t.cpsr = psr ∧
        t.pc =
          if psr.getLsbD 5 then blockPcWord p u rn list s &&& 0xFFFFFFFE#32 else blockPcWord p u rn list s &&& 0xFFFFFFFC#32)

/-- R340, R341, R344 to R346, R348 to R350: STM stores the listed registers in ascending order, then writes the base back. -/
def Obligations.BlockStores : Prop :=
  ∀ (p u : Bool) (cond : Cond) (ub w : Bool) (rn : Reg) (list : BitVec 16) (s : State),
    s.condPasses cond = true → (list = 0 → s.config.emptyRlist = .arm7) → Allowed s (rn = 15) → Allowed s (baseNotLowest w rn list) →
    Allowed s (ub && (s.mode == .usr || s.mode == .sys || w)) → BlockStoreAllowed p u rn list s →
    Completes (stmOf p u cond ub w rn list) s fun t => BlockStored p u ub w rn list s t ∧ SameFlags s t

/-- R119, R360, R361: SWP and SWPB leave the old contents in Rd and Rm at the same address. -/
def Obligations.Swaps : Prop :=
  ∀ (cond : Cond) (rn rd rm : Reg) (s : State),
    s.condPasses cond = true → Allowed s (rd = 15 || rm = 15 || rn = 15 || rn = rd || rn = rm) →
    let a := s.readReg rn
    (NoHazard s (a &&& 0xFFFFFFFC#32) 4 →
      Completes (.swp cond rn rd rm) s fun t =>
        WroteReg s t rd (wordAt s a) ∧ StoredBytes t (a &&& 0xFFFFFFFC#32) 4 (s.readReg rm)) ∧
    (NoHazard s a 1 →
      Completes (.swpb cond rn rd rm) s fun t =>
        WroteReg s t rd ((s.mem.byte a).zeroExtend 32) ∧ StoredBytes t a 1 (s.readReg rm))

/-! ## Branches and software interrupt -/

/-- R370 to R372: B and BL branch to `pc + 8` plus four times the signed offset, and BL links the address of the next instruction. -/
def Obligations.ArmBranches : Prop :=
  ∀ (cond : Cond) (imm : BitVec 24) (s : State),
    s.condPasses cond = true → s.thumb = false → s.alignPc s.pc = s.pc →
    let target := BitVec.ofInt 32 (s.pc.toNat + 8 + 4 * imm.toInt)
    Completes (.b cond imm) s (fun t => t.pc = target ∧ t.cpsr = s.cpsr ∧ t.regs = s.regs) ∧
    Completes (.bl cond imm) s (fun t => t.pc = target ∧ t.cpsr = s.cpsr ∧ t.readReg 14 = s.pc + 4)

/-- R373, R431: BX takes the instruction set from bit 0 of its register and the aligned target, and changes no other bit of the CPSR. -/
def Obligations.BranchExchanges : Prop :=
  ∀ s : State,
    let done := fun (i : Instr) (v : Word) => Completes i s fun t =>
      t.thumb = v.getLsbD 0 ∧ (t.pc = if v.getLsbD 0 then v &&& 0xFFFFFFFE#32 else v &&& 0xFFFFFFFC#32) ∧
      SameFlags s t ∧ psrI t.cpsr = psrI s.cpsr ∧ psrF t.cpsr = psrF s.cpsr ∧ psrM t.cpsr = psrM s.cpsr ∧ t.regs = s.regs
    (∀ (cond : Cond) (rm : Reg), s.condPasses cond = true → done (.bx cond rm) (s.readReg rm)) ∧
    ∀ (h1 h2 : Bool) (rs rd : LoReg), Allowed s h1 → done (.tBx h1 h2 rs rd) (s.readReg (hiReg h2 rs))

/-- R374, R479, R610, R611, R614: SWI enters Supervisor mode at `0x08`, with the old CPSR saved and the address of the next instruction in
R14_svc. -/
def Obligations.SoftwareInterrupts : Prop :=
  ∀ s : State,
    (∀ cond comment, s.condPasses cond = true → s.thumb = false →
      Completes (.swi cond comment) s fun t => EnteredException s t .svc 0x08 (s.pc + 4) false ∧ t.mem = s.mem) ∧
    (∀ comment, s.thumb = true →
      Completes (.tSwi comment) s fun t => EnteredException s t .svc 0x08 (s.pc + 2) false ∧ t.mem = s.mem)

/-! ## Thumb -/

/-- R401 to R403, R414 to R416, R419: the Thumb shifts by an immediate and by a register. -/
def Obligations.ThumbShifts : Prop :=
  ∀ (imm : BitVec 5) (rs rd : LoReg) (s : State),
    let shifted := fun o t => DpDone .mov true (lo rd) 0 o s t
    let amount := (s.readReg (lo rs)).extractLsb' 0 8
    Completes (.tLslImm imm rs rd) s (shifted (shiftImm .lsl imm (s.readReg (lo rs)) s.flagC)) ∧
    Completes (.tLsrImm imm rs rd) s (shifted (shiftImm .lsr imm (s.readReg (lo rs)) s.flagC)) ∧
    Completes (.tAsrImm imm rs rd) s (shifted (shiftImm .asr imm (s.readReg (lo rs)) s.flagC)) ∧
    Completes (.tLslReg rs rd) s (shifted (shiftReg .lsl amount (s.readReg (lo rd)) s.flagC)) ∧
    Completes (.tLsrReg rs rd) s (shifted (shiftReg .lsr amount (s.readReg (lo rd)) s.flagC)) ∧
    Completes (.tAsrReg rs rd) s (shifted (shiftReg .asr amount (s.readReg (lo rd)) s.flagC)) ∧
    Completes (.tRor rs rd) s (shifted (shiftReg .ror amount (s.readReg (lo rd)) s.flagC))

/-- R404 to R407, R409 to R411, R417, R418, R421 to R423: the Thumb additions, subtractions and comparisons, with all four flags. -/
def Obligations.ThumbArithmetic : Prop :=
  ∀ (rn rs rd : LoReg) (imm3 : BitVec 3) (imm8 : BitVec 8) (s : State),
    let r := fun n : LoReg => s.readReg (lo n)
    let sum := fun (x y : Word) (c : Bool) (written : Bool) (t : State) =>
      let a := addWithCarry x y c
      FlagsAre t a.res.msb (a.res == 0) a.carry a.overflow ∧ t.pc = s.pc + s.ilen ∧
        t.readReg (lo rd) = if written then a.res else r rd
    Completes (.tAddReg rn rs rd) s (sum (r rs) (r rn) false true) ∧
    Completes (.tSubReg rn rs rd) s (sum (r rs) (~~~(r rn)) true true) ∧
    Completes (.tAddImm3 imm3 rs rd) s (sum (r rs) (imm3.zeroExtend 32) false true) ∧
    Completes (.tSubImm3 imm3 rs rd) s (sum (r rs) (~~~(imm3.zeroExtend 32)) true true) ∧
    Completes (.tCmpImm rd imm8) s (sum (r rd) (~~~(imm8.zeroExtend 32)) true false) ∧
    Completes (.tAddImm8 rd imm8) s (sum (r rd) (imm8.zeroExtend 32) false true) ∧
    Completes (.tSubImm8 rd imm8) s (sum (r rd) (~~~(imm8.zeroExtend 32)) true true) ∧
    Completes (.tAdc rs rd) s (sum (r rd) (r rs) s.flagC true) ∧
    Completes (.tSbc rs rd) s (sum (r rd) (~~~(r rs)) s.flagC true) ∧
    Completes (.tNeg rs rd) s (sum 0 (~~~(r rs)) true true) ∧
    Completes (.tCmpReg rs rd) s (sum (r rd) (~~~(r rs)) true false) ∧
    Completes (.tCmn rs rd) s (sum (r rd) (r rs) false false)

/-- R408, R412, R413, R420, R424 to R427: the Thumb move, logical operations and multiply, with N and Z alone. -/
def Obligations.ThumbLogical : Prop :=
  ∀ (rs rd : LoReg) (imm : BitVec 8) (s : State),
    let r := fun n : LoReg => s.readReg (lo n)
    let leaves := fun (res : Word) (written : Bool) (t : State) =>
      FlagsAre t (res.getLsbD 31) (res == 0) s.flagC s.flagV ∧ t.pc = s.pc + s.ilen ∧
        t.readReg (lo rd) = if written then res else r rd
    Completes (.tMovImm rd imm) s (leaves (imm.zeroExtend 32) true) ∧
    Completes (.tAnd rs rd) s (leaves (r rd &&& r rs) true) ∧
    Completes (.tEor rs rd) s (leaves (r rd ^^^ r rs) true) ∧
    Completes (.tTst rs rd) s (leaves (r rd &&& r rs) false) ∧
    Completes (.tOrr rs rd) s (leaves (r rd ||| r rs) true) ∧
    Completes (.tBic rs rd) s (leaves (r rd &&& ~~~(r rs)) true) ∧
    Completes (.tMvn rs rd) s (leaves (~~~(r rs)) true) ∧
    (Allowed s (rd = rs) → Completes (.tMul rs rd) s (leaves (BitVec.ofNat 32 ((r rs).toNat * (r rd).toNat)) true))

/-- R428 to R430, R440: ADD, CMP and MOV of format 5, with flags for CMP alone and a branch when Rd is R15. -/
def Obligations.ThumbHighRegisters : Prop :=
  ∀ (h1 h2 : Bool) (rs rd : LoReg) (s : State),
    Allowed s (!h1 && !h2) →
    let d := hiReg h1 rd
    let y := s.readReg (hiReg h2 rs)
    let r := addWithCarry (s.readReg d) (~~~y) true
    Completes (.tAddHi h1 h2 rs rd) s (fun t => WroteReg s t d (s.readReg d + y) ∧ SameFlags s t) ∧
    Completes (.tMovHi h1 h2 rs rd) s (fun t => WroteReg s t d y ∧ SameFlags s t) ∧
    Completes (.tCmpHi h1 h2 rs rd) s
      (fun t => FlagsAre t r.res.msb (r.res == 0) r.carry r.overflow ∧ t.pc = s.pc + s.ilen)

/-- R450 to R452, R455, R456, R458 to R460, R462, R464, R466, R468: the Thumb loads. -/
def Obligations.ThumbLoads : Prop :=
  ∀ (ro rb rd : LoReg) (imm5 : BitVec 5) (imm8 : BitVec 8) (s : State),
    let loaded := fun (v : Word) (t : State) => t.readReg (lo rd) = v ∧ t.pc = s.pc + s.ilen ∧ SameFlags s t
    let base := s.readReg (lo rb)
    let off5 := fun k : Nat => BitVec.ofNat 32 (k * imm5.toNat)
    let off8 := BitVec.ofNat 32 (4 * imm8.toNat)
    let odd := fun a : Word => a.getLsbD 0 = true ∧ s.config.misalignedHalf = .arm7
    let half := fun a =>
      if odd a then ((halfAt s (a &&& 0xFFFFFFFE#32)).zeroExtend 32).rotateRight 8 else (halfAt s a).zeroExtend 32
    let signedHalf := fun a => if odd a then (s.mem.byte a).signExtend 32 else (halfAt s a).signExtend 32
    let indexed := base + s.readReg (lo ro)
    Completes (.tLdrPc rd imm8) s (loaded (wordAt s (((s.pc + 4) &&& 0xFFFFFFFC#32) + off8))) ∧
    Completes (.tLdrReg ro rb rd) s (loaded (wordAt s indexed)) ∧
    Completes (.tLdrbReg ro rb rd) s (loaded ((s.mem.byte indexed).zeroExtend 32)) ∧
    Completes (.tLdsb ro rb rd) s (loaded ((s.mem.byte indexed).signExtend 32)) ∧
    Completes (.tLdrhReg ro rb rd) s (loaded (half indexed)) ∧
    Completes (.tLdsh ro rb rd) s (loaded (signedHalf indexed)) ∧
    Completes (.tLdrImm imm5 rb rd) s (loaded (wordAt s (base + off5 4))) ∧
    Completes (.tLdrbImm imm5 rb rd) s (loaded ((s.mem.byte (base + off5 1)).zeroExtend 32)) ∧
    Completes (.tLdrhImm imm5 rb rd) s (loaded (half (base + off5 2))) ∧
    Completes (.tLdrSp rd imm8) s (loaded (wordAt s (s.readReg 13 + off8)))

/-- R450, R453, R454, R457, R461, R463, R465, R467: the Thumb stores. -/
def Obligations.ThumbStores : Prop :=
  ∀ (ro rb rd : LoReg) (imm5 : BitVec 5) (imm8 : BitVec 8) (s : State),
    let stores := fun (i : Instr) (k : StoreKind) (a : Word) =>
      NoHazard s (alignTo k.width a) k.bytes →
      Completes i s fun t =>
        StoredBytes t (alignTo k.width a) k.bytes (s.readReg (lo rd)) ∧ t.pc = s.pc + s.ilen ∧ t.regs = s.regs ∧ t.cpsr = s.cpsr
    let base := s.readReg (lo rb)
    let indexed := base + s.readReg (lo ro)
    let off5 := fun k : Nat => BitVec.ofNat 32 (k * imm5.toNat)
    stores (.tStrReg ro rb rd) .word indexed ∧ stores (.tStrbReg ro rb rd) .byte indexed ∧ stores (.tStrhReg ro rb rd) .half indexed ∧
    stores (.tStrImm imm5 rb rd) .word (base + off5 4) ∧ stores (.tStrbImm imm5 rb rd) .byte (base + off5 1) ∧
    stores (.tStrhImm imm5 rb rd) .half (base + off5 2) ∧
    stores (.tStrSp rd imm8) .word (s.readReg 13 + BitVec.ofNat 32 (4 * imm8.toNat))

/-- R451, R469 to R472: the Thumb address forms. -/
def Obligations.ThumbAddresses : Prop :=
  ∀ (rd : LoReg) (imm8 : BitVec 8) (imm7 : BitVec 7) (s : State),
    let wrote := fun (n : Reg) (v : Word) (t : State) => t.readReg n = v ∧ t.pc = s.pc + s.ilen ∧ t.cpsr = s.cpsr
    let off8 := BitVec.ofNat 32 (4 * imm8.toNat)
    let off7 := BitVec.ofNat 32 (4 * imm7.toNat)
    Completes (.tAddPc rd imm8) s (wrote (lo rd) (((s.pc + 4) &&& 0xFFFFFFFC#32) + off8)) ∧
    Completes (.tAddSp rd imm8) s (wrote (lo rd) (s.readReg 13 + off8)) ∧
    Completes (.tAddSpImm imm7) s (wrote 13 (s.readReg 13 + off7)) ∧
    Completes (.tSubSpImm imm7) s (wrote 13 (s.readReg 13 - off7))

/-- R473 to R477: PUSH stores below the stack pointer and STMIA from its base up; POP and LDMIA load from theirs up, R15 as a branch that keeps
the instruction set. -/
def Obligations.ThumbBlocks : Prop :=
  ∀ (r : Bool) (rb : LoReg) (list : BitVec 8) (s : State),
    let pushed := (if r then 0x4000#16 else 0) ||| list.zeroExtend 16
    let popped := (if r then 0x8000#16 else 0) ||| list.zeroExtend 16
    let low := list.zeroExtend 16
    let loaded := fun (rn : Reg) (l : BitVec 16) (t : State) =>
      BlockLoaded false true true s.mode rn l s t ∧ t.cpsr = s.cpsr ∧
        t.pc = if 15 ∈ (blockRegs l).1 then s.alignPc (blockPcWord false true rn l s) else s.pc + s.ilen
    ((pushed = 0 → s.config.emptyRlist = .arm7) → BlockStoreAllowed true false 13 pushed s →
      Completes (.tPush r list) s fun t => BlockStored true false false true 13 pushed s t ∧ SameFlags s t) ∧
    ((low = 0 → s.config.emptyRlist = .arm7) → Allowed s (baseNotLowest true (lo rb) low) → BlockStoreAllowed false true (lo rb) low s →
      Completes (.tStmia rb list) s fun t => BlockStored false true false true (lo rb) low s t ∧ SameFlags s t) ∧
    ((popped = 0 → s.config.emptyRlist = .arm7) → Completes (.tPop r list) s (loaded 13 popped)) ∧
    ((low = 0 → s.config.emptyRlist = .arm7) → Completes (.tLdmia rb list) s (loaded (lo rb) low))

/-- R478, R480, R481, R486, R487: the Thumb branches; the two halves of BL together branch to `pc + 4` plus the signed 23-bit offset. -/
def Obligations.ThumbBranches : Prop :=
  ∀ s : State, s.thumb = true → s.alignPc s.pc = s.pc →
    (∀ (cond : Cond) (imm : BitVec 8), s.condPasses cond = true →
      Completes (.tBcond cond imm) s fun t =>
        t.pc = BitVec.ofInt 32 (s.pc.toNat + 4 + 2 * imm.toInt) ∧ t.regs = s.regs ∧ t.cpsr = s.cpsr) ∧
    (∀ imm : BitVec 11,
      Completes (.tB imm) s fun t => t.pc = BitVec.ofInt 32 (s.pc.toNat + 4 + 2 * imm.toInt) ∧ t.regs = s.regs ∧ t.cpsr = s.cpsr) ∧
    (∀ imm : BitVec 11,
      Completes (.tBlLo imm) s fun t =>
        t.pc = (s.readReg 14 + BitVec.ofNat 32 (2 * imm.toNat)) &&& 0xFFFFFFFE#32 ∧ t.readReg 14 = (s.pc + 2) ||| 1 ∧ t.cpsr = s.cpsr) ∧
    (∀ high low : BitVec 11,
      Completes (.tBlHi high) s fun t =>
        t.pc = s.pc + 2 ∧ t.cpsr = s.cpsr ∧ t.readReg 14 = BitVec.ofInt 32 (s.pc.toNat + 4 + 4096 * high.toInt) ∧
        Completes (.tBlLo low) t fun t' =>
          t'.pc = BitVec.ofInt 32 (s.pc.toNat + 4 + 2 * (high ++ low).toInt) ∧ t'.readReg 14 = (s.pc + 4) ||| 1)

/-- R400 and the `ARM equivalent` each rule of 45_thumb_alu.md and 46_thumb_memory_branch.md names: the Thumb form runs as that ARM
instruction does in the same state, the cycle clock included. -/
def Obligations.ThumbRunsAsArm : Prop :=
  ∀ (ro rs rd : LoReg) (imm5 : BitVec 5) (imm8 : BitVec 8) (lr : Bool) (s : State),
    let same := fun (thumb arm : Instr) => exec thumb s = exec arm s
    same (.tLslImm imm5 rs rd) (.movShimm .al true 0 (lo rd) imm5 .lsl (lo rs)) ∧
    same (.tLsrImm imm5 rs rd) (.movShimm .al true 0 (lo rd) imm5 .lsr (lo rs)) ∧
    same (.tAsrImm imm5 rs rd) (.movShimm .al true 0 (lo rd) imm5 .asr (lo rs)) ∧
    same (.tAddReg ro rs rd) (.addShimm .al true (lo rs) (lo rd) 0 .lsl (lo ro)) ∧
    same (.tSubReg ro rs rd) (.subShimm .al true (lo rs) (lo rd) 0 .lsl (lo ro)) ∧
    same (.tMovImm rd imm8) (.movImm .al true 0 (lo rd) 0 imm8) ∧
    same (.tCmpImm rd imm8) (.cmpImm .al (lo rd) 0 0 imm8) ∧
    same (.tAnd rs rd) (.andShimm .al true (lo rd) (lo rd) 0 .lsl (lo rs)) ∧
    same (.tRor rs rd) (.movShreg .al true 0 (lo rd) (lo rs) .ror (lo rd)) ∧
    same (.tNeg rs rd) (.rsbImm .al true (lo rs) (lo rd) 0 0) ∧
    same (.tMul rs rd) (.mul .al true (lo rd) (lo rd) (lo rs)) ∧
    same (.tMvn rs rd) (.mvnShimm .al true 0 (lo rd) 0 .lsl (lo rs)) ∧
    same (.tStrReg ro rs rd) (.strReg .al true true false (lo rs) (lo rd) 0 .lsl (lo ro)) ∧
    same (.tLdsh ro rs rd) (.ldrshReg .al true true false (lo rs) (lo rd) (lo ro)) ∧
    same (.tPush lr imm8) (.stmdb .al false true 13 ((if lr then 0x4000#16 else 0) ||| imm8.zeroExtend 16)) ∧
    same (.tPop lr imm8) (.ldmia .al false true 13 ((if lr then 0x8000#16 else 0) ||| imm8.zeroExtend 16)) ∧
    same (.tStmia rs imm8) (.stmia .al false true (lo rs) (imm8.zeroExtend 16)) ∧
    same (.tLdmia rs imm8) (.ldmia .al false true (lo rs) (imm8.zeroExtend 16))

/-! ## Frames -/

/-- R55, R58, R72 and the rules of each instruction: a general register that `effects` does not name is unchanged in every bank. -/
def Obligations.FrameRegisters : Prop :=
  ∀ (i : Instr) (s t : State), exec i s = .next t → RegsKept (effects i s) s t

/-- R58, R68 to R70 and the rules of each instruction: the flags, the CPSR below the flags and the SPSRs are unchanged where `effects` does
not name them, and the parameters and the inputs to come always are. -/
def Obligations.FrameStatus : Prop :=
  ∀ (i : Instr) (s t : State), s.WellFormed → exec i s = .next t →
    FlagsKept (effects i s) s t ∧ ControlKept (effects i s) s t ∧ SpsrsKept (effects i s) s t ∧ InputsKept s t

/-- R83, R113 to R116, R120: every byte outside the bytes an instruction stores reads as before, and the wait-state register is unchanged
unless one of its bytes is stored. -/
def Obligations.FrameMemory : Prop :=
  ∀ (i : Instr) (s t : State), exec i s = .next t → MemoryKept (effects i s) s t

/-! ## Memory -/

/-- R103, R111 to R115: a word or halfword stored at any address is read back there rotated by the misalignment, where its bytes are mapped;
an unmapped byte reads 0 and a write to it changes nothing. -/
def Obligations.MemoryReadsBack : Prop :=
  ∀ (s : State) (a v : Word) (h : Half) (b : Byte),
    let word := a &&& 0xFFFFFFFC#32
    let half := a &&& 0xFFFFFFFE#32
    ((∀ k : Nat, k < 4 → s.mem.mapped (word + BitVec.ofNat 32 k) = true) →
      (s.memWrite32 a v).memRead32 a = v.rotateRight (8 * (a.toNat % 4))) ∧
    ((∀ k : Nat, k < 2 → s.mem.mapped (half + BitVec.ofNat 32 k) = true) →
      (s.memWrite16 a h).memRead16 a = h.rotateRight (8 * (a.toNat % 2))) ∧
    (s.mem.mapped a = true → (s.memWrite8 a b).memRead8 a = b) ∧
    (s.mem.mapped a = false → s.memRead8 a = 0 ∧ (s.memWrite8 a b).mem = s.mem)

/-- R83, R116: the wait-state register takes a write to its two bytes, but for bits 13 and 15, and no other write. -/
def Obligations.WaitControlWrites : Prop :=
  ∀ (s : State) (a v : Word) (h : Half) (b : Byte),
    s.waitcnt &&& 0xA000#16 = 0 →
    ((s.memWrite8 0x04000204#32 b).waitcnt = (s.waitcnt &&& 0xFF00#16) ||| b.zeroExtend 16) ∧
    ((s.memWrite8 0x04000205#32 b).waitcnt = ((b.zeroExtend 16 <<< 8) &&& 0x5F00#16) ||| (s.waitcnt &&& 0x00FF#16)) ∧
    ((s.memWrite16 0x04000204#32 h).waitcnt = h &&& 0x5FFF#16) ∧ ((s.memWrite16 0x04000205#32 h).waitcnt = h &&& 0x5FFF#16) ∧
    (a &&& 0xFFFFFFFC#32 = 0x04000204#32 → (s.memWrite32 a v).waitcnt = v.extractLsb' 0 16 &&& 0x5FFF#16) ∧
    (a &&& 0xFFFFFFFE#32 ≠ 0x04000204#32 → (s.memWrite8 a b).waitcnt = s.waitcnt ∧ (s.memWrite16 a h).waitcnt = s.waitcnt) ∧
    (a &&& 0xFFFFFFFC#32 ≠ 0x04000204#32 → (s.memWrite32 a v).waitcnt = s.waitcnt)

/-! ## The whole machine -/

/-- R57, R63, R71, R82, R101: every step keeps the invariant: memory canonical, reserved PSR bits 0, a legal mode, an aligned pc, the reserved
bits of the wait-state register 0, the cycle clock drained. -/
def Obligations.StepKeepsInvariant : Prop :=
  ∀ s t : State, s.Inv → step s = .next t → t.Inv

/-- Both reset profiles meet the invariant, for every parameter, every `RESET_REGS` (R703) and every canonical memory. The masking of the
supplied SPSRs is assumption 17. -/
def Obligations.ResetMeetsInvariant : Prop :=
  (∀ (entry : ResetEntry) (cfg : Config) (rr : ResetRegs) (mem : Memory), mem.wf = true → (State.resetWith entry cfg rr mem).Inv) ∧
    State.reset.Inv

/-- R701 to R708: what reset leaves in each profile, for every `RESET_REGS` and every supplied memory. A supplied SPSR reads with its
reserved bits 0 (R71, and assumption 17 of this model). -/
def Obligations.ResetValues : Prop :=
  ∀ (cfg : Config) (rr : ResetRegs) (mem : Memory),
    let hw := State.resetWith .hardware cfg rr mem
    let sb := State.resetWith .skipBios cfg rr mem
    let supplied := fun v : Word => some (v &&& 0xF00000FF#32)
    (hw.cpsr &&& 0x0FFFFFFF#32 = 0xD3 ∧ FlagsAre hw (rr.flags.getLsbD 3) (rr.flags.getLsbD 2) (rr.flags.getLsbD 1) (rr.flags.getLsbD 0) ∧
      hw.mode = .svc ∧ hw.pc = 0 ∧ hw.cycles = 0 ∧ hw.waitcnt = 0 ∧ hw.regs = rr.regs ∧ hw.mem = mem ∧
      hw.spsrOf .fiq = supplied rr.spsrFiq ∧ hw.spsrOf .irq = supplied rr.spsrIrq ∧ hw.spsrOf .svc = supplied rr.spsrSvc ∧
      hw.spsrOf .abt = supplied rr.spsrAbt ∧ hw.spsrOf .und = supplied rr.spsrUnd) ∧
    (sb.cpsr = 0x1F ∧ sb.mode = .sys ∧ sb.pc = 0x08000000 ∧ sb.cycles = 0 ∧ sb.waitcnt = 0 ∧ sb.mem = mem ∧
      sb.readBank .usr 13 = 0x03007F00 ∧ sb.readBank .irq 13 = 0x03007FA0 ∧ sb.readBank .svc 13 = 0x03007FE0 ∧
      sb.readBank .fiq 13 = 0 ∧ sb.readBank .abt 13 = 0 ∧ sb.readBank .und 13 = 0 ∧
      (∀ m n, n ≠ 13 → n ≠ 15 → sb.readBank m n = 0) ∧
      sb.spsrFiq = 0 ∧ sb.spsrIrq = 0 ∧ sb.spsrSvc = 0 ∧ sb.spsrAbt = 0 ∧ sb.spsrUnd = 0)

/-- R630, R70: in User mode no instruction but SWI leaves the mode or changes I or F, and none but SWI writes an SPSR. -/
def Obligations.UserModeLeftOnlyByException : Prop :=
  ∀ (i : Instr) (s t : State), s.WellFormed → s.mode = .usr → exec i s = .next t →
    (∃ cond comment, i = .swi cond comment) ∨ (∃ comment, i = .tSwi comment) ∨
    (t.mode = .usr ∧ psrI t.cpsr = psrI s.cpsr ∧ psrF t.cpsr = psrF s.cpsr ∧ ∀ m, t.spsrOf m = s.spsrOf m)

/-- R730 and 70_reset_and_hazards.md section 4: the state after a step is the same for every `WAIT_TABLE` and `COND_FAIL_CYCLES`, but for
the cycle counts; so no program observes them (R73, R84). -/
def Obligations.TimingIsUnobservable : Prop :=
  ∀ s u : State, SameButTiming s u →
    (∀ t, step s = .next t → ∃ v, step u = .next v ∧ SameButTiming t v) ∧ (∀ r, step s = .fault r → step u = .fault r)

/-- R610 to R613, R620, R621: `MOVS PC, R14` right after an SWI, and `SUBS PC, R14, #4` right after an IRQ or FIQ entry, bring back the CPSR, the
pc and every register of the interrupted mode, except R14 and the SPSR of the entered mode when it is that mode (R622). -/
def Obligations.ExceptionRoundTrip : Prop :=
  ∀ s t : State, s.WellFormed →
    let back := fun (entered : Mode) (pc : Word) (v : State) =>
      v.cpsr = s.cpsr ∧ v.pc = pc ∧ ∀ m n, n ≠ 15 → ¬ (n = 14 ∧ m = entered) → v.readBank m n = s.readBank m n
    let resumed := Completes (.movShimm .al true 0 15 0 .lsl 14) t (back .svc (s.pc + s.ilen))
    (∀ cond comment, s.condPasses cond = true → s.thumb = false → exec (.swi cond comment) s = .next t → resumed) ∧
    (∀ comment, s.thumb = true → exec (.tSwi comment) s = .next t → resumed) ∧
    (¬ NoInterrupt s → step s = .next t → Completes (.subImm .al true 14 15 0 4) t (back t.mode s.pc))

/-- The stops of `STRICT_UNPREDICTABLE` (R14): each UNPREDICTABLE combination ends the step under its name (R237, R246, R247, R249, R284, R285,
R302, R330, R331, R345, R349, R360, R425, R440, R475, and the base of 43_arm_load_store.md section 5). Where an instruction fails two of
its checks, the clauses state the order R605 gives, as assumption 7 reads it. -/
def Obligations.StrictStops : Prop :=
  ∀ (cond : Cond) (s : State), s.condPasses cond = true → s.config.strictUnpredictable = true →
    let stops := fun (l : List Instr) (c : UnpredictableCase) => ∀ i ∈ l, exec i s = .fault (.unpredictable c)
    (∀ op sf rn rd ty rm, stops [dpShreg op cond sf rn rd 15 ty rm] .rsIsPC) ∧
    stops [.mrs cond false 15] .mrsToPC ∧ (∀ mask, stops [.msrReg cond false mask 15] .msrFromPC) ∧
    (s.spsr.isSome = true → stops [.mrs cond true 15] .mrsToPC ∧ ∀ mask, stops [.msrReg cond true mask 15] .msrFromPC) ∧
    (∀ sf rd rs rm, rd = rm ∨ rd = 15 ∨ rm = 15 ∨ rs = 15 →
      stops [.mul cond sf rd rs rm] .mulRegisters ∧ ∀ rn, stops [.mla cond sf rd rn rs rm] .mulRegisters) ∧
    (∀ sf rd rs rm, stops [.mla cond sf rd 15 rs rm] .mulRegisters) ∧
    (∀ sf rdHi rdLo rs rm, rdHi = rdLo ∨ rdHi = rm ∨ rdLo = rm ∨ rdHi = 15 ∨ rdLo = 15 ∨ rm = 15 ∨ rs = 15 →
      stops [.umull cond sf rdHi rdLo rs rm, .umlal cond sf rdHi rdLo rs rm, .smull cond sf rdHi rdLo rs rm, .smlal cond sf rdHi rdLo rs rm]
        .mulRegisters) ∧
    (∀ p u w rn rd amount ty,
      stops [.ldrReg cond p u w rn rd amount ty 15, .strReg cond p u w rn rd amount ty 15, .ldrtReg cond u rn rd amount ty 15,
        .strtReg cond u rn rd amount ty 15] .rmIsPC ∧
      (rd ≠ 15 →
        stops [.ldrbReg cond p u w rn rd amount ty 15, .strbReg cond p u w rn rd amount ty 15, .ldrbtReg cond u rn rd amount ty 15,
          .strbtReg cond u rn rd amount ty 15, .ldrhReg cond p u w rn rd 15, .strhReg cond p u w rn rd 15, .ldrsbReg cond p u w rn rd 15,
          .ldrshReg cond p u w rn rd 15] .rmIsPC)) ∧
    (∀ p u w rd imm imm8, p = false ∨ w = true →
      stops [.ldrImm cond p u w 15 rd imm, .strImm cond p u w 15 rd imm, .ldrtImm cond u 15 rd imm, .strtImm cond u 15 rd imm]
        .writebackPC ∧
      (rd ≠ 15 →
        stops [.ldrbImm cond p u w 15 rd imm, .strbImm cond p u w 15 rd imm, .ldrbtImm cond u 15 rd imm, .strbtImm cond u 15 rd imm,
          .ldrhImm cond p u w 15 rd imm8, .strhImm cond p u w 15 rd imm8, .ldrsbImm cond p u w 15 rd imm8,
          .ldrshImm cond p u w 15 rd imm8] .writebackPC)) ∧
    (∀ p u w rd amount ty rm, p = false ∨ w = true → rm ≠ 15 →
      stops [.ldrReg cond p u w 15 rd amount ty rm, .strReg cond p u w 15 rd amount ty rm, .ldrtReg cond u 15 rd amount ty rm,
        .strtReg cond u 15 rd amount ty rm] .writebackPC ∧
      (rd ≠ 15 →
        stops [.ldrbReg cond p u w 15 rd amount ty rm, .strbReg cond p u w 15 rd amount ty rm, .ldrbtReg cond u 15 rd amount ty rm,
          .strbtReg cond u 15 rd amount ty rm, .ldrhReg cond p u w 15 rd rm, .strhReg cond p u w 15 rd rm,
          .ldrsbReg cond p u w 15 rd rm, .ldrshReg cond p u w 15 rd rm] .writebackPC)) ∧
    (∀ p u w rn imm amount ty rm,
      stops [.ldrbImm cond p u w rn 15 imm, .strbImm cond p u w rn 15 imm, .ldrbtImm cond u rn 15 imm, .strbtImm cond u rn 15 imm,
        .ldrbReg cond p u w rn 15 amount ty rm, .strbReg cond p u w rn 15 amount ty rm, .ldrbtReg cond u rn 15 amount ty rm,
        .strbtReg cond u rn 15 amount ty rm] .bytePC) ∧
    (∀ p u w rn imm rm,
      stops [.ldrhImm cond p u w rn 15 imm, .strhImm cond p u w rn 15 imm, .ldrsbImm cond p u w rn 15 imm, .ldrshImm cond p u w rn 15 imm,
        .ldrhReg cond p u w rn 15 rm, .strhReg cond p u w rn 15 rm, .ldrsbReg cond p u w rn 15 rm, .ldrshReg cond p u w rn 15 rm]
        .halfwordPC) ∧
    (∀ p u rn list, baseNotLowest true rn list = true → stops [stmOf p u cond false true rn list] .stmBaseNotFirst) ∧
    (∀ p u w rn list, (list = 0 → s.config.emptyRlist = .arm7) → s.mode = .usr ∨ s.mode = .sys ∨ w = true →
      stops [stmOf p u cond true w rn list] .userBankTransfer ∧
      (15 ∉ (blockRegs list).1 → stops [ldmOf p u cond true w rn list] .userBankTransfer)) ∧
    (∀ p u ub w list, (list = 0 → s.config.emptyRlist = .arm7) → (ub = true → s.mode ≠ .usr ∧ s.mode ≠ .sys ∧ w = false) →
      (baseNotLowest w 15 list = false → stops [stmOf p u cond ub w 15 list] .blockBasePC) ∧
      ((ub = true → 15 ∉ (blockRegs list).1) → stops [ldmOf p u cond ub w 15 list] .blockBasePC)) ∧
    (∀ p u w list psr, (list = 0 → s.config.emptyRlist = .arm7) → 15 ∈ (blockRegs list).1 → s.spsr = some psr →
      (Mode.ofBits? (psr.extractLsb' 0 5)).isSome = true → stops [ldmOf p u cond true w 15 list] .blockBasePC) ∧
    (∀ rn rd rm, rd = 15 ∨ rm = 15 ∨ rn = 15 ∨ rn = rd ∨ rn = rm →
      stops [.swp cond rn rd rm, .swpb cond rn rd rm] .swapRegisters) ∧
    (∀ rs, stops [.tMul rs rs] .mulRegisters) ∧
    (∀ rb list, baseNotLowest true (lo rb) (list.zeroExtend 16) = true → stops [.tStmia rb list] .stmBaseNotFirst) ∧
    (∀ rs rd, stops [.tAddHi false false rs rd, .tCmpHi false false rs rd, .tMovHi false false rs rd, .tBx true false rs rd,
      .tBx true true rs rd] .thumbHiRegisters)

/-- R346, R477, R720: with `EMPTY_RLIST = fault` an empty register list ends the step, and with `PREFETCH_HAZARD = fault` so does every store
its registers allow, one of whose bytes lies in one of the two instruction slots after the instruction. R720 says "one or two": that both
count is assumption 11. -/
def Obligations.EmptyListAndHazardStops : Prop :=
  ∀ (cond : Cond) (s : State), s.condPasses cond = true →
    let empty := fun i : Instr => exec i s = .fault (.unpredictable .emptyRegisterList)
    let hazard := fun i : Instr => exec i s = .fault .prefetchHazard
    let hits := fun (k : StoreKind) (a : Word) => ∃ j : Nat, j < k.bytes ∧
      let d := (alignTo k.width a + BitVec.ofNat 32 j - s.pc).toNat
      s.ilen.toNat ≤ d ∧ d < 3 * s.ilen.toNat
    let blockHits := fun (p u : Bool) (rn : Reg) (list : BitVec 16) => ∃ k : Nat, k < (blockRegs list).1.length ∧
      hits .word (blockWord (blockTable p u (s.readReg rn) (blockRegs list).2).1 k)
    (s.config.emptyRlist = .fault →
      (∀ p u ub w rn, empty (ldmOf p u cond ub w rn 0) ∧ empty (stmOf p u cond ub w rn 0)) ∧
      empty (.tPush false 0) ∧ empty (.tPop false 0) ∧ ∀ rb, empty (.tStmia rb 0) ∧ empty (.tLdmia rb 0)) ∧
    (s.config.prefetchHazard = .fault →
      (∀ p u w rn rd (imm : BitVec 12), Allowed s ((!p || w) && rn = 15) →
        let a := transferAddr p u rn (imm.zeroExtend 32) s
        (hits .word a → hazard (.strImm cond p u w rn rd imm) ∧ (p = false → hazard (.strtImm cond u rn rd imm))) ∧
        (hits .byte a → Allowed s (rd = 15) →
          hazard (.strbImm cond p u w rn rd imm) ∧ (p = false → hazard (.strbtImm cond u rn rd imm)))) ∧
      (∀ p u w rn rd amount ty rm, Allowed s ((!p || w) && rn = 15) → Allowed s (rm = 15) →
        let a := transferAddr p u rn (shiftImm ty amount (s.readReg rm) s.flagC).value s
        (hits .word a → hazard (.strReg cond p u w rn rd amount ty rm) ∧ (p = false → hazard (.strtReg cond u rn rd amount ty rm))) ∧
        (hits .byte a → Allowed s (rd = 15) →
          hazard (.strbReg cond p u w rn rd amount ty rm) ∧ (p = false → hazard (.strbtReg cond u rn rd amount ty rm)))) ∧
      (∀ p u w rn rd, Allowed s ((!p || w) && rn = 15) → Allowed s (rd = 15) →
        (∀ imm : BitVec 8, hits .half (transferAddr p u rn (imm.zeroExtend 32) s) → hazard (.strhImm cond p u w rn rd imm)) ∧
        ∀ rm, Allowed s (rm = 15) → hits .half (transferAddr p u rn (s.readReg rm) s) → hazard (.strhReg cond p u w rn rd rm)) ∧
      (∀ p u ub w rn list, (list = 0 → s.config.emptyRlist = .arm7) → Allowed s (rn = 15) → Allowed s (baseNotLowest w rn list) →
        Allowed s (ub && (s.mode == .usr || s.mode == .sys || w)) → blockHits p u rn list → hazard (stmOf p u cond ub w rn list)) ∧
      (∀ rn rd rm, Allowed s (rd = 15 || rm = 15 || rn = 15 || rn = rd || rn = rm) →
        (hits .word (s.readReg rn) → hazard (.swp cond rn rd rm)) ∧ (hits .byte (s.readReg rn) → hazard (.swpb cond rn rd rm))) ∧
      (∀ (ro rb rd : LoReg) (imm5 : BitVec 5) (imm8 : BitVec 8),
        let base := s.readReg (lo rb)
        let indexed := base + s.readReg (lo ro)
        let off5 := fun k : Nat => BitVec.ofNat 32 (k * imm5.toNat)
        (hits .word indexed → hazard (.tStrReg ro rb rd)) ∧ (hits .byte indexed → hazard (.tStrbReg ro rb rd)) ∧
        (hits .half indexed → hazard (.tStrhReg ro rb rd)) ∧ (hits .word (base + off5 4) → hazard (.tStrImm imm5 rb rd)) ∧
        (hits .byte (base + off5 1) → hazard (.tStrbImm imm5 rb rd)) ∧ (hits .half (base + off5 2) → hazard (.tStrhImm imm5 rb rd)) ∧
        (hits .word (s.readReg 13 + BitVec.ofNat 32 (4 * imm8.toNat)) → hazard (.tStrSp rd imm8))) ∧
      ∀ (lr : Bool) (rb : LoReg) (list : BitVec 8),
        let pushed := (if lr then 0x4000#16 else 0) ||| list.zeroExtend 16
        let low := list.zeroExtend 16
        ((pushed = 0 → s.config.emptyRlist = .arm7) → blockHits true false 13 pushed → hazard (.tPush lr list)) ∧
        ((low = 0 → s.config.emptyRlist = .arm7) → Allowed s (baseNotLowest true (lo rb) low) → blockHits false true (lo rb) low →
          hazard (.tStmia rb list)))

/-- R730 to R743, R745: the cycles of every instruction whose condition holds and that goes on, and of an interrupt entry. `charges` is the table
of the rules, instruction by instruction. That a store is charged with the wait-state register before it is assumption 14; that the
refill of R730 is charged in every form that writes R15 is assumption 9, and that Thumb CMP with Rd = 15, which writes none, is charged
no refill is assumption 22. -/
def Obligations.InstructionTiming : Prop :=
  (∀ (i : Instr) (s t : State), exec i s = .next t → s.condPasses (condOf i) = true →
    t.cycles = s.cycles + (charges i s).cycles + if (charges i s).refill then refillCost t else 0) ∧
  ∀ s t : State, ¬ NoInterrupt s → step s = .next t → t.cyclesOut = s.cycles + fetchCost s s.pc .S + refillCost t

end Statements
end

