-- ==== Sys2Proof/Laws/State.lean ====
section
/-! SUPPORT. One lemma for every field of every update of the state, so that no later proof unfolds a record update. -/

namespace Sys2Proof.Machine

/-! ### writePc -/

@[simp] theorem State.writePc_regs (s : State) (v : Word) : (s.writePc v).regs = s.regs := rfl
@[simp] theorem State.writePc_pc (s : State) (v : Word) : (s.writePc v).pc = s.alignPc v := rfl
@[simp] theorem State.writePc_cpsr (s : State) (v : Word) : (s.writePc v).cpsr = s.cpsr := rfl
@[simp] theorem State.writePc_spsrFiq (s : State) (v : Word) : (s.writePc v).spsrFiq = s.spsrFiq := rfl
@[simp] theorem State.writePc_spsrIrq (s : State) (v : Word) : (s.writePc v).spsrIrq = s.spsrIrq := rfl
@[simp] theorem State.writePc_spsrSvc (s : State) (v : Word) : (s.writePc v).spsrSvc = s.spsrSvc := rfl
@[simp] theorem State.writePc_spsrAbt (s : State) (v : Word) : (s.writePc v).spsrAbt = s.spsrAbt := rfl
@[simp] theorem State.writePc_spsrUnd (s : State) (v : Word) : (s.writePc v).spsrUnd = s.spsrUnd := rfl
@[simp] theorem State.writePc_cycles (s : State) (v : Word) : (s.writePc v).cycles = s.cycles := rfl
@[simp] theorem State.writePc_waitcnt (s : State) (v : Word) : (s.writePc v).waitcnt = s.waitcnt := rfl
@[simp] theorem State.writePc_mem (s : State) (v : Word) : (s.writePc v).mem = s.mem := rfl
@[simp] theorem State.writePc_config (s : State) (v : Word) : (s.writePc v).config = s.config := rfl
@[simp] theorem State.writePc_env (s : State) (v : Word) : (s.writePc v).env = s.env := rfl
@[simp] theorem State.writePc_cyclesOut (s : State) (v : Word) : (s.writePc v).cyclesOut = s.cyclesOut := rfl

/-! ### advance -/

@[simp] theorem State.advance_regs (s : State) : (s.advance).regs = s.regs := rfl
@[simp] theorem State.advance_pc (s : State) : (s.advance).pc = s.pc + s.ilen := rfl
@[simp] theorem State.advance_cpsr (s : State) : (s.advance).cpsr = s.cpsr := rfl
@[simp] theorem State.advance_spsrFiq (s : State) : (s.advance).spsrFiq = s.spsrFiq := rfl
@[simp] theorem State.advance_spsrIrq (s : State) : (s.advance).spsrIrq = s.spsrIrq := rfl
@[simp] theorem State.advance_spsrSvc (s : State) : (s.advance).spsrSvc = s.spsrSvc := rfl
@[simp] theorem State.advance_spsrAbt (s : State) : (s.advance).spsrAbt = s.spsrAbt := rfl
@[simp] theorem State.advance_spsrUnd (s : State) : (s.advance).spsrUnd = s.spsrUnd := rfl
@[simp] theorem State.advance_cycles (s : State) : (s.advance).cycles = s.cycles := rfl
@[simp] theorem State.advance_waitcnt (s : State) : (s.advance).waitcnt = s.waitcnt := rfl
@[simp] theorem State.advance_mem (s : State) : (s.advance).mem = s.mem := rfl
@[simp] theorem State.advance_config (s : State) : (s.advance).config = s.config := rfl
@[simp] theorem State.advance_env (s : State) : (s.advance).env = s.env := rfl
@[simp] theorem State.advance_cyclesOut (s : State) : (s.advance).cyclesOut = s.cyclesOut := rfl

/-! ### writeCpsr -/

@[simp] theorem State.writeCpsr_regs (s : State) (v : Word) : (s.writeCpsr v).regs = s.regs := rfl
@[simp] theorem State.writeCpsr_pc (s : State) (v : Word) : (s.writeCpsr v).pc = s.pc := rfl
@[simp] theorem State.writeCpsr_cpsr (s : State) (v : Word) : (s.writeCpsr v).cpsr = v &&& psrImplemented := rfl
@[simp] theorem State.writeCpsr_spsrFiq (s : State) (v : Word) : (s.writeCpsr v).spsrFiq = s.spsrFiq := rfl
@[simp] theorem State.writeCpsr_spsrIrq (s : State) (v : Word) : (s.writeCpsr v).spsrIrq = s.spsrIrq := rfl
@[simp] theorem State.writeCpsr_spsrSvc (s : State) (v : Word) : (s.writeCpsr v).spsrSvc = s.spsrSvc := rfl
@[simp] theorem State.writeCpsr_spsrAbt (s : State) (v : Word) : (s.writeCpsr v).spsrAbt = s.spsrAbt := rfl
@[simp] theorem State.writeCpsr_spsrUnd (s : State) (v : Word) : (s.writeCpsr v).spsrUnd = s.spsrUnd := rfl
@[simp] theorem State.writeCpsr_cycles (s : State) (v : Word) : (s.writeCpsr v).cycles = s.cycles := rfl
@[simp] theorem State.writeCpsr_waitcnt (s : State) (v : Word) : (s.writeCpsr v).waitcnt = s.waitcnt := rfl
@[simp] theorem State.writeCpsr_mem (s : State) (v : Word) : (s.writeCpsr v).mem = s.mem := rfl
@[simp] theorem State.writeCpsr_config (s : State) (v : Word) : (s.writeCpsr v).config = s.config := rfl
@[simp] theorem State.writeCpsr_env (s : State) (v : Word) : (s.writeCpsr v).env = s.env := rfl
@[simp] theorem State.writeCpsr_cyclesOut (s : State) (v : Word) : (s.writeCpsr v).cyclesOut = s.cyclesOut := rfl

/-! ### writeFlags -/

@[simp] theorem State.writeFlags_regs (s : State) (n z c v : Bool) : (s.writeFlags n z c v).regs = s.regs := rfl
@[simp] theorem State.writeFlags_pc (s : State) (n z c v : Bool) : (s.writeFlags n z c v).pc = s.pc := rfl
@[simp] theorem State.writeFlags_cpsr (s : State) (n z c v : Bool) : (s.writeFlags n z c v).cpsr = psrWithFlags s.cpsr n z c v := rfl
@[simp] theorem State.writeFlags_spsrFiq (s : State) (n z c v : Bool) : (s.writeFlags n z c v).spsrFiq = s.spsrFiq := rfl
@[simp] theorem State.writeFlags_spsrIrq (s : State) (n z c v : Bool) : (s.writeFlags n z c v).spsrIrq = s.spsrIrq := rfl
@[simp] theorem State.writeFlags_spsrSvc (s : State) (n z c v : Bool) : (s.writeFlags n z c v).spsrSvc = s.spsrSvc := rfl
@[simp] theorem State.writeFlags_spsrAbt (s : State) (n z c v : Bool) : (s.writeFlags n z c v).spsrAbt = s.spsrAbt := rfl
@[simp] theorem State.writeFlags_spsrUnd (s : State) (n z c v : Bool) : (s.writeFlags n z c v).spsrUnd = s.spsrUnd := rfl
@[simp] theorem State.writeFlags_cycles (s : State) (n z c v : Bool) : (s.writeFlags n z c v).cycles = s.cycles := rfl
@[simp] theorem State.writeFlags_waitcnt (s : State) (n z c v : Bool) : (s.writeFlags n z c v).waitcnt = s.waitcnt := rfl
@[simp] theorem State.writeFlags_mem (s : State) (n z c v : Bool) : (s.writeFlags n z c v).mem = s.mem := rfl
@[simp] theorem State.writeFlags_config (s : State) (n z c v : Bool) : (s.writeFlags n z c v).config = s.config := rfl
@[simp] theorem State.writeFlags_env (s : State) (n z c v : Bool) : (s.writeFlags n z c v).env = s.env := rfl
@[simp] theorem State.writeFlags_cyclesOut (s : State) (n z c v : Bool) : (s.writeFlags n z c v).cyclesOut = s.cyclesOut := rfl

/-! ### writeThumb -/

@[simp] theorem State.writeThumb_regs (s : State) (t : Bool) : (s.writeThumb t).regs = s.regs := rfl
@[simp] theorem State.writeThumb_pc (s : State) (t : Bool) : (s.writeThumb t).pc = s.pc := rfl
@[simp] theorem State.writeThumb_cpsr (s : State) (t : Bool) : (s.writeThumb t).cpsr = psrWithControl s.cpsr (psrI s.cpsr) (psrF s.cpsr) t (psrM s.cpsr) := rfl
@[simp] theorem State.writeThumb_spsrFiq (s : State) (t : Bool) : (s.writeThumb t).spsrFiq = s.spsrFiq := rfl
@[simp] theorem State.writeThumb_spsrIrq (s : State) (t : Bool) : (s.writeThumb t).spsrIrq = s.spsrIrq := rfl
@[simp] theorem State.writeThumb_spsrSvc (s : State) (t : Bool) : (s.writeThumb t).spsrSvc = s.spsrSvc := rfl
@[simp] theorem State.writeThumb_spsrAbt (s : State) (t : Bool) : (s.writeThumb t).spsrAbt = s.spsrAbt := rfl
@[simp] theorem State.writeThumb_spsrUnd (s : State) (t : Bool) : (s.writeThumb t).spsrUnd = s.spsrUnd := rfl
@[simp] theorem State.writeThumb_cycles (s : State) (t : Bool) : (s.writeThumb t).cycles = s.cycles := rfl
@[simp] theorem State.writeThumb_waitcnt (s : State) (t : Bool) : (s.writeThumb t).waitcnt = s.waitcnt := rfl
@[simp] theorem State.writeThumb_mem (s : State) (t : Bool) : (s.writeThumb t).mem = s.mem := rfl
@[simp] theorem State.writeThumb_config (s : State) (t : Bool) : (s.writeThumb t).config = s.config := rfl
@[simp] theorem State.writeThumb_env (s : State) (t : Bool) : (s.writeThumb t).env = s.env := rfl
@[simp] theorem State.writeThumb_cyclesOut (s : State) (t : Bool) : (s.writeThumb t).cyclesOut = s.cyclesOut := rfl

/-! ### writeSpsrOf -/

@[simp] theorem State.writeSpsrOf_regs (s : State) (m : Mode) (v : Word) : (s.writeSpsrOf m v).regs = s.regs := by cases m <;> rfl
@[simp] theorem State.writeSpsrOf_pc (s : State) (m : Mode) (v : Word) : (s.writeSpsrOf m v).pc = s.pc := by cases m <;> rfl
@[simp] theorem State.writeSpsrOf_cpsr (s : State) (m : Mode) (v : Word) : (s.writeSpsrOf m v).cpsr = s.cpsr := by cases m <;> rfl
@[simp] theorem State.writeSpsrOf_cycles (s : State) (m : Mode) (v : Word) : (s.writeSpsrOf m v).cycles = s.cycles := by cases m <;> rfl
@[simp] theorem State.writeSpsrOf_waitcnt (s : State) (m : Mode) (v : Word) : (s.writeSpsrOf m v).waitcnt = s.waitcnt := by cases m <;> rfl
@[simp] theorem State.writeSpsrOf_mem (s : State) (m : Mode) (v : Word) : (s.writeSpsrOf m v).mem = s.mem := by cases m <;> rfl
@[simp] theorem State.writeSpsrOf_config (s : State) (m : Mode) (v : Word) : (s.writeSpsrOf m v).config = s.config := by cases m <;> rfl
@[simp] theorem State.writeSpsrOf_env (s : State) (m : Mode) (v : Word) : (s.writeSpsrOf m v).env = s.env := by cases m <;> rfl
@[simp] theorem State.writeSpsrOf_cyclesOut (s : State) (m : Mode) (v : Word) : (s.writeSpsrOf m v).cyclesOut = s.cyclesOut := by cases m <;> rfl

/-! ### writePhys -/

@[simp] theorem State.writePhys_cpsr (s : State) (r : PhysReg) (v : Word) : (s.writePhys r v).cpsr = s.cpsr := by cases r <;> rfl
@[simp] theorem State.writePhys_spsrFiq (s : State) (r : PhysReg) (v : Word) : (s.writePhys r v).spsrFiq = s.spsrFiq := by cases r <;> rfl
@[simp] theorem State.writePhys_spsrIrq (s : State) (r : PhysReg) (v : Word) : (s.writePhys r v).spsrIrq = s.spsrIrq := by cases r <;> rfl
@[simp] theorem State.writePhys_spsrSvc (s : State) (r : PhysReg) (v : Word) : (s.writePhys r v).spsrSvc = s.spsrSvc := by cases r <;> rfl
@[simp] theorem State.writePhys_spsrAbt (s : State) (r : PhysReg) (v : Word) : (s.writePhys r v).spsrAbt = s.spsrAbt := by cases r <;> rfl
@[simp] theorem State.writePhys_spsrUnd (s : State) (r : PhysReg) (v : Word) : (s.writePhys r v).spsrUnd = s.spsrUnd := by cases r <;> rfl
@[simp] theorem State.writePhys_cycles (s : State) (r : PhysReg) (v : Word) : (s.writePhys r v).cycles = s.cycles := by cases r <;> rfl
@[simp] theorem State.writePhys_waitcnt (s : State) (r : PhysReg) (v : Word) : (s.writePhys r v).waitcnt = s.waitcnt := by cases r <;> rfl
@[simp] theorem State.writePhys_mem (s : State) (r : PhysReg) (v : Word) : (s.writePhys r v).mem = s.mem := by cases r <;> rfl
@[simp] theorem State.writePhys_config (s : State) (r : PhysReg) (v : Word) : (s.writePhys r v).config = s.config := by cases r <;> rfl
@[simp] theorem State.writePhys_env (s : State) (r : PhysReg) (v : Word) : (s.writePhys r v).env = s.env := by cases r <;> rfl
@[simp] theorem State.writePhys_cyclesOut (s : State) (r : PhysReg) (v : Word) : (s.writePhys r v).cyclesOut = s.cyclesOut := by cases r <;> rfl

/-! ### writeBank -/

@[simp] theorem State.writeBank_cpsr (s : State) (m : Mode) (n : Reg) (v : Word) : (s.writeBank m n v).cpsr = s.cpsr := by simp [State.writeBank]
@[simp] theorem State.writeBank_spsrFiq (s : State) (m : Mode) (n : Reg) (v : Word) : (s.writeBank m n v).spsrFiq = s.spsrFiq := by simp [State.writeBank]
@[simp] theorem State.writeBank_spsrIrq (s : State) (m : Mode) (n : Reg) (v : Word) : (s.writeBank m n v).spsrIrq = s.spsrIrq := by simp [State.writeBank]
@[simp] theorem State.writeBank_spsrSvc (s : State) (m : Mode) (n : Reg) (v : Word) : (s.writeBank m n v).spsrSvc = s.spsrSvc := by simp [State.writeBank]
@[simp] theorem State.writeBank_spsrAbt (s : State) (m : Mode) (n : Reg) (v : Word) : (s.writeBank m n v).spsrAbt = s.spsrAbt := by simp [State.writeBank]
@[simp] theorem State.writeBank_spsrUnd (s : State) (m : Mode) (n : Reg) (v : Word) : (s.writeBank m n v).spsrUnd = s.spsrUnd := by simp [State.writeBank]
@[simp] theorem State.writeBank_cycles (s : State) (m : Mode) (n : Reg) (v : Word) : (s.writeBank m n v).cycles = s.cycles := by simp [State.writeBank]
@[simp] theorem State.writeBank_waitcnt (s : State) (m : Mode) (n : Reg) (v : Word) : (s.writeBank m n v).waitcnt = s.waitcnt := by simp [State.writeBank]
@[simp] theorem State.writeBank_mem (s : State) (m : Mode) (n : Reg) (v : Word) : (s.writeBank m n v).mem = s.mem := by simp [State.writeBank]
@[simp] theorem State.writeBank_config (s : State) (m : Mode) (n : Reg) (v : Word) : (s.writeBank m n v).config = s.config := by simp [State.writeBank]
@[simp] theorem State.writeBank_env (s : State) (m : Mode) (n : Reg) (v : Word) : (s.writeBank m n v).env = s.env := by simp [State.writeBank]
@[simp] theorem State.writeBank_cyclesOut (s : State) (m : Mode) (n : Reg) (v : Word) : (s.writeBank m n v).cyclesOut = s.cyclesOut := by simp [State.writeBank]

/-! ### writeReg -/

@[simp] theorem State.writeReg_cpsr (s : State) (n : Reg) (v : Word) : (s.writeReg n v).cpsr = s.cpsr := by simp [State.writeReg]
@[simp] theorem State.writeReg_spsrFiq (s : State) (n : Reg) (v : Word) : (s.writeReg n v).spsrFiq = s.spsrFiq := by simp [State.writeReg]
@[simp] theorem State.writeReg_spsrIrq (s : State) (n : Reg) (v : Word) : (s.writeReg n v).spsrIrq = s.spsrIrq := by simp [State.writeReg]
@[simp] theorem State.writeReg_spsrSvc (s : State) (n : Reg) (v : Word) : (s.writeReg n v).spsrSvc = s.spsrSvc := by simp [State.writeReg]
@[simp] theorem State.writeReg_spsrAbt (s : State) (n : Reg) (v : Word) : (s.writeReg n v).spsrAbt = s.spsrAbt := by simp [State.writeReg]
@[simp] theorem State.writeReg_spsrUnd (s : State) (n : Reg) (v : Word) : (s.writeReg n v).spsrUnd = s.spsrUnd := by simp [State.writeReg]
@[simp] theorem State.writeReg_cycles (s : State) (n : Reg) (v : Word) : (s.writeReg n v).cycles = s.cycles := by simp [State.writeReg]
@[simp] theorem State.writeReg_waitcnt (s : State) (n : Reg) (v : Word) : (s.writeReg n v).waitcnt = s.waitcnt := by simp [State.writeReg]
@[simp] theorem State.writeReg_mem (s : State) (n : Reg) (v : Word) : (s.writeReg n v).mem = s.mem := by simp [State.writeReg]
@[simp] theorem State.writeReg_config (s : State) (n : Reg) (v : Word) : (s.writeReg n v).config = s.config := by simp [State.writeReg]
@[simp] theorem State.writeReg_env (s : State) (n : Reg) (v : Word) : (s.writeReg n v).env = s.env := by simp [State.writeReg]
@[simp] theorem State.writeReg_cyclesOut (s : State) (n : Reg) (v : Word) : (s.writeReg n v).cyclesOut = s.cyclesOut := by simp [State.writeReg]

/-! ### writeByte -/

@[simp] theorem State.writeByte_regs (s : State) (a : Word) (v : Byte) : (s.writeByte a v).regs = s.regs := rfl
@[simp] theorem State.writeByte_pc (s : State) (a : Word) (v : Byte) : (s.writeByte a v).pc = s.pc := rfl
@[simp] theorem State.writeByte_cpsr (s : State) (a : Word) (v : Byte) : (s.writeByte a v).cpsr = s.cpsr := rfl
@[simp] theorem State.writeByte_spsrFiq (s : State) (a : Word) (v : Byte) : (s.writeByte a v).spsrFiq = s.spsrFiq := rfl
@[simp] theorem State.writeByte_spsrIrq (s : State) (a : Word) (v : Byte) : (s.writeByte a v).spsrIrq = s.spsrIrq := rfl
@[simp] theorem State.writeByte_spsrSvc (s : State) (a : Word) (v : Byte) : (s.writeByte a v).spsrSvc = s.spsrSvc := rfl
@[simp] theorem State.writeByte_spsrAbt (s : State) (a : Word) (v : Byte) : (s.writeByte a v).spsrAbt = s.spsrAbt := rfl
@[simp] theorem State.writeByte_spsrUnd (s : State) (a : Word) (v : Byte) : (s.writeByte a v).spsrUnd = s.spsrUnd := rfl
@[simp] theorem State.writeByte_cycles (s : State) (a : Word) (v : Byte) : (s.writeByte a v).cycles = s.cycles := rfl
@[simp] theorem State.writeByte_waitcnt (s : State) (a : Word) (v : Byte) : (s.writeByte a v).waitcnt = State.waitcntAfter s.waitcnt a v := rfl
@[simp] theorem State.writeByte_mem (s : State) (a : Word) (v : Byte) : (s.writeByte a v).mem = s.mem.setByte a v := rfl
@[simp] theorem State.writeByte_config (s : State) (a : Word) (v : Byte) : (s.writeByte a v).config = s.config := rfl
@[simp] theorem State.writeByte_env (s : State) (a : Word) (v : Byte) : (s.writeByte a v).env = s.env := rfl
@[simp] theorem State.writeByte_cyclesOut (s : State) (a : Word) (v : Byte) : (s.writeByte a v).cyclesOut = s.cyclesOut := rfl

/-! ### memWrite8 -/

@[simp] theorem State.memWrite8_regs (s : State) (a : Word) (v : Byte) : (s.memWrite8 a v).regs = s.regs := rfl
@[simp] theorem State.memWrite8_pc (s : State) (a : Word) (v : Byte) : (s.memWrite8 a v).pc = s.pc := rfl
@[simp] theorem State.memWrite8_cpsr (s : State) (a : Word) (v : Byte) : (s.memWrite8 a v).cpsr = s.cpsr := rfl
@[simp] theorem State.memWrite8_spsrFiq (s : State) (a : Word) (v : Byte) : (s.memWrite8 a v).spsrFiq = s.spsrFiq := rfl
@[simp] theorem State.memWrite8_spsrIrq (s : State) (a : Word) (v : Byte) : (s.memWrite8 a v).spsrIrq = s.spsrIrq := rfl
@[simp] theorem State.memWrite8_spsrSvc (s : State) (a : Word) (v : Byte) : (s.memWrite8 a v).spsrSvc = s.spsrSvc := rfl
@[simp] theorem State.memWrite8_spsrAbt (s : State) (a : Word) (v : Byte) : (s.memWrite8 a v).spsrAbt = s.spsrAbt := rfl
@[simp] theorem State.memWrite8_spsrUnd (s : State) (a : Word) (v : Byte) : (s.memWrite8 a v).spsrUnd = s.spsrUnd := rfl
@[simp] theorem State.memWrite8_cycles (s : State) (a : Word) (v : Byte) : (s.memWrite8 a v).cycles = s.cycles := rfl
@[simp] theorem State.memWrite8_mem (s : State) (a : Word) (v : Byte) : (s.memWrite8 a v).mem = s.mem.setByte a v := rfl
@[simp] theorem State.memWrite8_config (s : State) (a : Word) (v : Byte) : (s.memWrite8 a v).config = s.config := rfl
@[simp] theorem State.memWrite8_env (s : State) (a : Word) (v : Byte) : (s.memWrite8 a v).env = s.env := rfl
@[simp] theorem State.memWrite8_cyclesOut (s : State) (a : Word) (v : Byte) : (s.memWrite8 a v).cyclesOut = s.cyclesOut := rfl

/-! ### memWrite16 -/

@[simp] theorem State.memWrite16_regs (s : State) (a : Word) (v : Half) : (s.memWrite16 a v).regs = s.regs := by simp [State.memWrite16]
@[simp] theorem State.memWrite16_pc (s : State) (a : Word) (v : Half) : (s.memWrite16 a v).pc = s.pc := by simp [State.memWrite16]
@[simp] theorem State.memWrite16_cpsr (s : State) (a : Word) (v : Half) : (s.memWrite16 a v).cpsr = s.cpsr := by simp [State.memWrite16]
@[simp] theorem State.memWrite16_spsrFiq (s : State) (a : Word) (v : Half) : (s.memWrite16 a v).spsrFiq = s.spsrFiq := by simp [State.memWrite16]
@[simp] theorem State.memWrite16_spsrIrq (s : State) (a : Word) (v : Half) : (s.memWrite16 a v).spsrIrq = s.spsrIrq := by simp [State.memWrite16]
@[simp] theorem State.memWrite16_spsrSvc (s : State) (a : Word) (v : Half) : (s.memWrite16 a v).spsrSvc = s.spsrSvc := by simp [State.memWrite16]
@[simp] theorem State.memWrite16_spsrAbt (s : State) (a : Word) (v : Half) : (s.memWrite16 a v).spsrAbt = s.spsrAbt := by simp [State.memWrite16]
@[simp] theorem State.memWrite16_spsrUnd (s : State) (a : Word) (v : Half) : (s.memWrite16 a v).spsrUnd = s.spsrUnd := by simp [State.memWrite16]
@[simp] theorem State.memWrite16_cycles (s : State) (a : Word) (v : Half) : (s.memWrite16 a v).cycles = s.cycles := by simp [State.memWrite16]
@[simp] theorem State.memWrite16_config (s : State) (a : Word) (v : Half) : (s.memWrite16 a v).config = s.config := by simp [State.memWrite16]
@[simp] theorem State.memWrite16_env (s : State) (a : Word) (v : Half) : (s.memWrite16 a v).env = s.env := by simp [State.memWrite16]
@[simp] theorem State.memWrite16_cyclesOut (s : State) (a : Word) (v : Half) : (s.memWrite16 a v).cyclesOut = s.cyclesOut := by simp [State.memWrite16]

/-! ### memWrite32 -/

@[simp] theorem State.memWrite32_regs (s : State) (a v : Word) : (s.memWrite32 a v).regs = s.regs := by simp [State.memWrite32]
@[simp] theorem State.memWrite32_pc (s : State) (a v : Word) : (s.memWrite32 a v).pc = s.pc := by simp [State.memWrite32]
@[simp] theorem State.memWrite32_cpsr (s : State) (a v : Word) : (s.memWrite32 a v).cpsr = s.cpsr := by simp [State.memWrite32]
@[simp] theorem State.memWrite32_spsrFiq (s : State) (a v : Word) : (s.memWrite32 a v).spsrFiq = s.spsrFiq := by simp [State.memWrite32]
@[simp] theorem State.memWrite32_spsrIrq (s : State) (a v : Word) : (s.memWrite32 a v).spsrIrq = s.spsrIrq := by simp [State.memWrite32]
@[simp] theorem State.memWrite32_spsrSvc (s : State) (a v : Word) : (s.memWrite32 a v).spsrSvc = s.spsrSvc := by simp [State.memWrite32]
@[simp] theorem State.memWrite32_spsrAbt (s : State) (a v : Word) : (s.memWrite32 a v).spsrAbt = s.spsrAbt := by simp [State.memWrite32]
@[simp] theorem State.memWrite32_spsrUnd (s : State) (a v : Word) : (s.memWrite32 a v).spsrUnd = s.spsrUnd := by simp [State.memWrite32]
@[simp] theorem State.memWrite32_cycles (s : State) (a v : Word) : (s.memWrite32 a v).cycles = s.cycles := by simp [State.memWrite32]
@[simp] theorem State.memWrite32_config (s : State) (a v : Word) : (s.memWrite32 a v).config = s.config := by simp [State.memWrite32]
@[simp] theorem State.memWrite32_env (s : State) (a v : Word) : (s.memWrite32 a v).env = s.env := by simp [State.memWrite32]
@[simp] theorem State.memWrite32_cyclesOut (s : State) (a v : Word) : (s.memWrite32 a v).cyclesOut = s.cyclesOut := by simp [State.memWrite32]

/-! ### charge -/

@[simp] theorem State.charge_regs (s : State) (a : Word) (w : Width) (k : AccessClass) : (s.charge a w k).regs = s.regs := rfl
@[simp] theorem State.charge_pc (s : State) (a : Word) (w : Width) (k : AccessClass) : (s.charge a w k).pc = s.pc := rfl
@[simp] theorem State.charge_cpsr (s : State) (a : Word) (w : Width) (k : AccessClass) : (s.charge a w k).cpsr = s.cpsr := rfl
@[simp] theorem State.charge_spsrFiq (s : State) (a : Word) (w : Width) (k : AccessClass) : (s.charge a w k).spsrFiq = s.spsrFiq := rfl
@[simp] theorem State.charge_spsrIrq (s : State) (a : Word) (w : Width) (k : AccessClass) : (s.charge a w k).spsrIrq = s.spsrIrq := rfl
@[simp] theorem State.charge_spsrSvc (s : State) (a : Word) (w : Width) (k : AccessClass) : (s.charge a w k).spsrSvc = s.spsrSvc := rfl
@[simp] theorem State.charge_spsrAbt (s : State) (a : Word) (w : Width) (k : AccessClass) : (s.charge a w k).spsrAbt = s.spsrAbt := rfl
@[simp] theorem State.charge_spsrUnd (s : State) (a : Word) (w : Width) (k : AccessClass) : (s.charge a w k).spsrUnd = s.spsrUnd := rfl
@[simp] theorem State.charge_cycles (s : State) (a : Word) (w : Width) (k : AccessClass) : (s.charge a w k).cycles = s.cycles + waitCost s.config (regionClass a) w k s.waitcnt := rfl
@[simp] theorem State.charge_waitcnt (s : State) (a : Word) (w : Width) (k : AccessClass) : (s.charge a w k).waitcnt = s.waitcnt := rfl
@[simp] theorem State.charge_mem (s : State) (a : Word) (w : Width) (k : AccessClass) : (s.charge a w k).mem = s.mem := rfl
@[simp] theorem State.charge_config (s : State) (a : Word) (w : Width) (k : AccessClass) : (s.charge a w k).config = s.config := rfl
@[simp] theorem State.charge_env (s : State) (a : Word) (w : Width) (k : AccessClass) : (s.charge a w k).env = s.env := rfl
@[simp] theorem State.charge_cyclesOut (s : State) (a : Word) (w : Width) (k : AccessClass) : (s.charge a w k).cyclesOut = s.cyclesOut := rfl

/-! ### internal -/

@[simp] theorem State.internal_regs (s : State) (k : Word) : (s.internal k).regs = s.regs := rfl
@[simp] theorem State.internal_pc (s : State) (k : Word) : (s.internal k).pc = s.pc := rfl
@[simp] theorem State.internal_cpsr (s : State) (k : Word) : (s.internal k).cpsr = s.cpsr := rfl
@[simp] theorem State.internal_spsrFiq (s : State) (k : Word) : (s.internal k).spsrFiq = s.spsrFiq := rfl
@[simp] theorem State.internal_spsrIrq (s : State) (k : Word) : (s.internal k).spsrIrq = s.spsrIrq := rfl
@[simp] theorem State.internal_spsrSvc (s : State) (k : Word) : (s.internal k).spsrSvc = s.spsrSvc := rfl
@[simp] theorem State.internal_spsrAbt (s : State) (k : Word) : (s.internal k).spsrAbt = s.spsrAbt := rfl
@[simp] theorem State.internal_spsrUnd (s : State) (k : Word) : (s.internal k).spsrUnd = s.spsrUnd := rfl
@[simp] theorem State.internal_cycles (s : State) (k : Word) : (s.internal k).cycles = s.cycles + k := rfl
@[simp] theorem State.internal_waitcnt (s : State) (k : Word) : (s.internal k).waitcnt = s.waitcnt := rfl
@[simp] theorem State.internal_mem (s : State) (k : Word) : (s.internal k).mem = s.mem := rfl
@[simp] theorem State.internal_config (s : State) (k : Word) : (s.internal k).config = s.config := rfl
@[simp] theorem State.internal_env (s : State) (k : Word) : (s.internal k).env = s.env := rfl
@[simp] theorem State.internal_cyclesOut (s : State) (k : Word) : (s.internal k).cyclesOut = s.cyclesOut := rfl

/-! ### chargeCode -/

@[simp] theorem State.chargeCode_regs (s : State) (k : AccessClass) : (s.chargeCode k).regs = s.regs := rfl
@[simp] theorem State.chargeCode_pc (s : State) (k : AccessClass) : (s.chargeCode k).pc = s.pc := rfl
@[simp] theorem State.chargeCode_cpsr (s : State) (k : AccessClass) : (s.chargeCode k).cpsr = s.cpsr := rfl
@[simp] theorem State.chargeCode_spsrFiq (s : State) (k : AccessClass) : (s.chargeCode k).spsrFiq = s.spsrFiq := rfl
@[simp] theorem State.chargeCode_spsrIrq (s : State) (k : AccessClass) : (s.chargeCode k).spsrIrq = s.spsrIrq := rfl
@[simp] theorem State.chargeCode_spsrSvc (s : State) (k : AccessClass) : (s.chargeCode k).spsrSvc = s.spsrSvc := rfl
@[simp] theorem State.chargeCode_spsrAbt (s : State) (k : AccessClass) : (s.chargeCode k).spsrAbt = s.spsrAbt := rfl
@[simp] theorem State.chargeCode_spsrUnd (s : State) (k : AccessClass) : (s.chargeCode k).spsrUnd = s.spsrUnd := rfl
@[simp] theorem State.chargeCode_cycles (s : State) (k : AccessClass) : (s.chargeCode k).cycles = s.cycles + waitCost s.config (regionClass s.pc) s.codeWidth k s.waitcnt := rfl
@[simp] theorem State.chargeCode_waitcnt (s : State) (k : AccessClass) : (s.chargeCode k).waitcnt = s.waitcnt := rfl
@[simp] theorem State.chargeCode_mem (s : State) (k : AccessClass) : (s.chargeCode k).mem = s.mem := rfl
@[simp] theorem State.chargeCode_config (s : State) (k : AccessClass) : (s.chargeCode k).config = s.config := rfl
@[simp] theorem State.chargeCode_env (s : State) (k : AccessClass) : (s.chargeCode k).env = s.env := rfl
@[simp] theorem State.chargeCode_cyclesOut (s : State) (k : AccessClass) : (s.chargeCode k).cyclesOut = s.cyclesOut := rfl

/-! ### refill -/

@[simp] theorem State.refill_regs (s : State) : (s.refill).regs = s.regs := rfl
@[simp] theorem State.refill_pc (s : State) : (s.refill).pc = s.pc := rfl
@[simp] theorem State.refill_cpsr (s : State) : (s.refill).cpsr = s.cpsr := rfl
@[simp] theorem State.refill_spsrFiq (s : State) : (s.refill).spsrFiq = s.spsrFiq := rfl
@[simp] theorem State.refill_spsrIrq (s : State) : (s.refill).spsrIrq = s.spsrIrq := rfl
@[simp] theorem State.refill_spsrSvc (s : State) : (s.refill).spsrSvc = s.spsrSvc := rfl
@[simp] theorem State.refill_spsrAbt (s : State) : (s.refill).spsrAbt = s.spsrAbt := rfl
@[simp] theorem State.refill_spsrUnd (s : State) : (s.refill).spsrUnd = s.spsrUnd := rfl
@[simp] theorem State.refill_waitcnt (s : State) : (s.refill).waitcnt = s.waitcnt := rfl
@[simp] theorem State.refill_mem (s : State) : (s.refill).mem = s.mem := rfl
@[simp] theorem State.refill_config (s : State) : (s.refill).config = s.config := rfl
@[simp] theorem State.refill_env (s : State) : (s.refill).env = s.env := rfl
@[simp] theorem State.refill_cyclesOut (s : State) : (s.refill).cyclesOut = s.cyclesOut := rfl

/-! ### finish -/

@[simp] theorem State.finish_regs (s : State) (b : Bool) : (s.finish b).regs = s.regs := by cases b <;> rfl
@[simp] theorem State.finish_pc (s : State) (b : Bool) : (s.finish b).pc = if b then s.pc else s.pc + s.ilen := by cases b <;> rfl
@[simp] theorem State.finish_cpsr (s : State) (b : Bool) : (s.finish b).cpsr = s.cpsr := by cases b <;> rfl
@[simp] theorem State.finish_spsrFiq (s : State) (b : Bool) : (s.finish b).spsrFiq = s.spsrFiq := by cases b <;> rfl
@[simp] theorem State.finish_spsrIrq (s : State) (b : Bool) : (s.finish b).spsrIrq = s.spsrIrq := by cases b <;> rfl
@[simp] theorem State.finish_spsrSvc (s : State) (b : Bool) : (s.finish b).spsrSvc = s.spsrSvc := by cases b <;> rfl
@[simp] theorem State.finish_spsrAbt (s : State) (b : Bool) : (s.finish b).spsrAbt = s.spsrAbt := by cases b <;> rfl
@[simp] theorem State.finish_spsrUnd (s : State) (b : Bool) : (s.finish b).spsrUnd = s.spsrUnd := by cases b <;> rfl
@[simp] theorem State.finish_waitcnt (s : State) (b : Bool) : (s.finish b).waitcnt = s.waitcnt := by cases b <;> rfl
@[simp] theorem State.finish_mem (s : State) (b : Bool) : (s.finish b).mem = s.mem := by cases b <;> rfl
@[simp] theorem State.finish_config (s : State) (b : Bool) : (s.finish b).config = s.config := by cases b <;> rfl
@[simp] theorem State.finish_env (s : State) (b : Bool) : (s.finish b).env = s.env := by cases b <;> rfl
@[simp] theorem State.finish_cyclesOut (s : State) (b : Bool) : (s.finish b).cyclesOut = s.cyclesOut := by cases b <;> rfl

/-! ### chargeCondFail -/

@[simp] theorem State.chargeCondFail_regs (s : State) : (s.chargeCondFail).regs = s.regs := by unfold State.chargeCondFail; split <;> rfl
@[simp] theorem State.chargeCondFail_pc (s : State) : (s.chargeCondFail).pc = s.pc := by unfold State.chargeCondFail; split <;> rfl
@[simp] theorem State.chargeCondFail_cpsr (s : State) : (s.chargeCondFail).cpsr = s.cpsr := by unfold State.chargeCondFail; split <;> rfl
@[simp] theorem State.chargeCondFail_spsrFiq (s : State) : (s.chargeCondFail).spsrFiq = s.spsrFiq := by unfold State.chargeCondFail; split <;> rfl
@[simp] theorem State.chargeCondFail_spsrIrq (s : State) : (s.chargeCondFail).spsrIrq = s.spsrIrq := by unfold State.chargeCondFail; split <;> rfl
@[simp] theorem State.chargeCondFail_spsrSvc (s : State) : (s.chargeCondFail).spsrSvc = s.spsrSvc := by unfold State.chargeCondFail; split <;> rfl
@[simp] theorem State.chargeCondFail_spsrAbt (s : State) : (s.chargeCondFail).spsrAbt = s.spsrAbt := by unfold State.chargeCondFail; split <;> rfl
@[simp] theorem State.chargeCondFail_spsrUnd (s : State) : (s.chargeCondFail).spsrUnd = s.spsrUnd := by unfold State.chargeCondFail; split <;> rfl
@[simp] theorem State.chargeCondFail_waitcnt (s : State) : (s.chargeCondFail).waitcnt = s.waitcnt := by unfold State.chargeCondFail; split <;> rfl
@[simp] theorem State.chargeCondFail_mem (s : State) : (s.chargeCondFail).mem = s.mem := by unfold State.chargeCondFail; split <;> rfl
@[simp] theorem State.chargeCondFail_config (s : State) : (s.chargeCondFail).config = s.config := by unfold State.chargeCondFail; split <;> rfl
@[simp] theorem State.chargeCondFail_env (s : State) : (s.chargeCondFail).env = s.env := by unfold State.chargeCondFail; split <;> rfl
@[simp] theorem State.chargeCondFail_cyclesOut (s : State) : (s.chargeCondFail).cyclesOut = s.cyclesOut := by unfold State.chargeCondFail; split <;> rfl

/-! ### returnFromException -/

@[simp] theorem State.returnFromException_regs (s : State) (p v : Word) : (s.returnFromException p v).regs = s.regs := rfl
@[simp] theorem State.returnFromException_cpsr (s : State) (p v : Word) : (s.returnFromException p v).cpsr = p &&& psrImplemented := rfl
@[simp] theorem State.returnFromException_spsrFiq (s : State) (p v : Word) : (s.returnFromException p v).spsrFiq = s.spsrFiq := rfl
@[simp] theorem State.returnFromException_spsrIrq (s : State) (p v : Word) : (s.returnFromException p v).spsrIrq = s.spsrIrq := rfl
@[simp] theorem State.returnFromException_spsrSvc (s : State) (p v : Word) : (s.returnFromException p v).spsrSvc = s.spsrSvc := rfl
@[simp] theorem State.returnFromException_spsrAbt (s : State) (p v : Word) : (s.returnFromException p v).spsrAbt = s.spsrAbt := rfl
@[simp] theorem State.returnFromException_spsrUnd (s : State) (p v : Word) : (s.returnFromException p v).spsrUnd = s.spsrUnd := rfl
@[simp] theorem State.returnFromException_cycles (s : State) (p v : Word) : (s.returnFromException p v).cycles = s.cycles := rfl
@[simp] theorem State.returnFromException_waitcnt (s : State) (p v : Word) : (s.returnFromException p v).waitcnt = s.waitcnt := rfl
@[simp] theorem State.returnFromException_mem (s : State) (p v : Word) : (s.returnFromException p v).mem = s.mem := rfl
@[simp] theorem State.returnFromException_config (s : State) (p v : Word) : (s.returnFromException p v).config = s.config := rfl
@[simp] theorem State.returnFromException_env (s : State) (p v : Word) : (s.returnFromException p v).env = s.env := rfl
@[simp] theorem State.returnFromException_cyclesOut (s : State) (p v : Word) : (s.returnFromException p v).cyclesOut = s.cyclesOut := rfl

/-! ### drain -/

@[simp] theorem State.drain_regs (s : State) : (s.drain).regs = s.regs := rfl
@[simp] theorem State.drain_pc (s : State) : (s.drain).pc = s.pc := rfl
@[simp] theorem State.drain_cpsr (s : State) : (s.drain).cpsr = s.cpsr := rfl
@[simp] theorem State.drain_spsrFiq (s : State) : (s.drain).spsrFiq = s.spsrFiq := rfl
@[simp] theorem State.drain_spsrIrq (s : State) : (s.drain).spsrIrq = s.spsrIrq := rfl
@[simp] theorem State.drain_spsrSvc (s : State) : (s.drain).spsrSvc = s.spsrSvc := rfl
@[simp] theorem State.drain_spsrAbt (s : State) : (s.drain).spsrAbt = s.spsrAbt := rfl
@[simp] theorem State.drain_spsrUnd (s : State) : (s.drain).spsrUnd = s.spsrUnd := rfl
@[simp] theorem State.drain_cycles (s : State) : (s.drain).cycles = 0 := rfl
@[simp] theorem State.drain_waitcnt (s : State) : (s.drain).waitcnt = s.waitcnt := rfl
@[simp] theorem State.drain_mem (s : State) : (s.drain).mem = s.mem := rfl
@[simp] theorem State.drain_config (s : State) : (s.drain).config = s.config := rfl
@[simp] theorem State.drain_env (s : State) : (s.drain).env = s.env := rfl
@[simp] theorem State.drain_cyclesOut (s : State) : (s.drain).cyclesOut = s.cycles := rfl

/-! ### afterInput -/

@[simp] theorem State.afterInput_regs (s : State) : (s.afterInput).regs = s.regs := rfl
@[simp] theorem State.afterInput_pc (s : State) : (s.afterInput).pc = s.pc := rfl
@[simp] theorem State.afterInput_cpsr (s : State) : (s.afterInput).cpsr = s.cpsr := rfl
@[simp] theorem State.afterInput_spsrFiq (s : State) : (s.afterInput).spsrFiq = s.spsrFiq := rfl
@[simp] theorem State.afterInput_spsrIrq (s : State) : (s.afterInput).spsrIrq = s.spsrIrq := rfl
@[simp] theorem State.afterInput_spsrSvc (s : State) : (s.afterInput).spsrSvc = s.spsrSvc := rfl
@[simp] theorem State.afterInput_spsrAbt (s : State) : (s.afterInput).spsrAbt = s.spsrAbt := rfl
@[simp] theorem State.afterInput_spsrUnd (s : State) : (s.afterInput).spsrUnd = s.spsrUnd := rfl
@[simp] theorem State.afterInput_cycles (s : State) : (s.afterInput).cycles = s.cycles := rfl
@[simp] theorem State.afterInput_waitcnt (s : State) : (s.afterInput).waitcnt = s.waitcnt := rfl
@[simp] theorem State.afterInput_mem (s : State) : (s.afterInput).mem = collaboratorWrites s.nextInput.writes s.mem := rfl
@[simp] theorem State.afterInput_config (s : State) : (s.afterInput).config = s.config := rfl
@[simp] theorem State.afterInput_env (s : State) : (s.afterInput).env = s.env.tail := rfl
@[simp] theorem State.afterInput_cyclesOut (s : State) : (s.afterInput).cyclesOut = s.cyclesOut := rfl

/-! ### chargeWords -/

@[simp] theorem State.chargeWords_regs (n : Nat) (a : Word) (k : AccessClass) (s : State) :
    (State.chargeWords n a k s).regs = s.regs := by
  induction n generalizing a k s with
  | zero => rfl
  | succ n ih => exact ih _ _ _

@[simp] theorem State.chargeWords_pc (n : Nat) (a : Word) (k : AccessClass) (s : State) :
    (State.chargeWords n a k s).pc = s.pc := by
  induction n generalizing a k s with
  | zero => rfl
  | succ n ih => exact ih _ _ _

@[simp] theorem State.chargeWords_cpsr (n : Nat) (a : Word) (k : AccessClass) (s : State) :
    (State.chargeWords n a k s).cpsr = s.cpsr := by
  induction n generalizing a k s with
  | zero => rfl
  | succ n ih => exact ih _ _ _

@[simp] theorem State.chargeWords_spsrFiq (n : Nat) (a : Word) (k : AccessClass) (s : State) :
    (State.chargeWords n a k s).spsrFiq = s.spsrFiq := by
  induction n generalizing a k s with
  | zero => rfl
  | succ n ih => exact ih _ _ _

@[simp] theorem State.chargeWords_spsrIrq (n : Nat) (a : Word) (k : AccessClass) (s : State) :
    (State.chargeWords n a k s).spsrIrq = s.spsrIrq := by
  induction n generalizing a k s with
  | zero => rfl
  | succ n ih => exact ih _ _ _

@[simp] theorem State.chargeWords_spsrSvc (n : Nat) (a : Word) (k : AccessClass) (s : State) :
    (State.chargeWords n a k s).spsrSvc = s.spsrSvc := by
  induction n generalizing a k s with
  | zero => rfl
  | succ n ih => exact ih _ _ _

@[simp] theorem State.chargeWords_spsrAbt (n : Nat) (a : Word) (k : AccessClass) (s : State) :
    (State.chargeWords n a k s).spsrAbt = s.spsrAbt := by
  induction n generalizing a k s with
  | zero => rfl
  | succ n ih => exact ih _ _ _

@[simp] theorem State.chargeWords_spsrUnd (n : Nat) (a : Word) (k : AccessClass) (s : State) :
    (State.chargeWords n a k s).spsrUnd = s.spsrUnd := by
  induction n generalizing a k s with
  | zero => rfl
  | succ n ih => exact ih _ _ _

@[simp] theorem State.chargeWords_waitcnt (n : Nat) (a : Word) (k : AccessClass) (s : State) :
    (State.chargeWords n a k s).waitcnt = s.waitcnt := by
  induction n generalizing a k s with
  | zero => rfl
  | succ n ih => exact ih _ _ _

@[simp] theorem State.chargeWords_mem (n : Nat) (a : Word) (k : AccessClass) (s : State) :
    (State.chargeWords n a k s).mem = s.mem := by
  induction n generalizing a k s with
  | zero => rfl
  | succ n ih => exact ih _ _ _

@[simp] theorem State.chargeWords_config (n : Nat) (a : Word) (k : AccessClass) (s : State) :
    (State.chargeWords n a k s).config = s.config := by
  induction n generalizing a k s with
  | zero => rfl
  | succ n ih => exact ih _ _ _

@[simp] theorem State.chargeWords_env (n : Nat) (a : Word) (k : AccessClass) (s : State) :
    (State.chargeWords n a k s).env = s.env := by
  induction n generalizing a k s with
  | zero => rfl
  | succ n ih => exact ih _ _ _

@[simp] theorem State.chargeWords_cyclesOut (n : Nat) (a : Word) (k : AccessClass) (s : State) :
    (State.chargeWords n a k s).cyclesOut = s.cyclesOut := by
  induction n generalizing a k s with
  | zero => rfl
  | succ n ih => exact ih _ _ _

end Sys2Proof.Machine
end

