-- ==== Sys2Proof/Laws/Memory.lean ====
section
/-! SUPPORT. The laws of memory: reads after writes, and that every operation keeps the canonical form. -/

namespace Sys2Proof.Machine

/-! ## Cells -/

theorem Cells.get_insert (l : List Host.Cell) (a c : Nat) (v : Byte) (h : ∀ x ∈ l, x.1 ≠ a) :
    Cells.get (Cells.insert l a v) c = if a = c then v else Cells.get l c := by
  induction l with
  | nil => simp [Cells.insert, Cells.get]
  | cons x rest ih =>
    obtain ⟨b, w⟩ := x
    have hb : b ≠ a := h (b, w) (by simp)
    have hr : ∀ x ∈ rest, x.1 ≠ a := fun x hx => h x (by simp [hx])
    unfold Cells.insert
    split
    · simp [Cells.get]
    · simp only [Cells.get, ih hr]
      by_cases h1 : a = c
      · subst h1; simp [hb]
      · simp [h1]

theorem Cells.get_filter (l : List Host.Cell) (a c : Nat) :
    Cells.get (l.filter fun x => x.1 != a) c = if a = c then 0 else Cells.get l c := by
  induction l with
  | nil => simp [Cells.get]
  | cons x rest ih =>
    obtain ⟨b, w⟩ := x
    by_cases hb : b = a
    · subst hb
      by_cases hc : b = c
      · subst hc; simpa [Cells.get] using ih
      · simp [ih, Cells.get, hc]
    · by_cases hc : a = c
      · subst hc; simp [hb, Cells.get, ih]
      · simp [hb, hc, Cells.get, ih]

/-- A read of the cells after a write of one (R113). -/
theorem Cells.get_set (l : List Host.Cell) (a c : Nat) (v : Byte) :
    Cells.get (Cells.set l a v) c = if a = c then v else Cells.get l c := by
  have hf : ∀ x ∈ l.filter (fun x => x.1 != a), x.1 ≠ a := by
    intro x hx; simpa using (List.mem_filter.mp hx).2
  unfold Cells.set
  by_cases hv : v = 0
  · subst hv; simp [Cells.get_filter]
  · simp only [hv, if_false, Cells.get_insert _ _ _ _ hf, Cells.get_filter]
    by_cases hc : a = c <;> simp [hc]

theorem Cells.sorted_cons (c : Host.Cell) (l : List Host.Cell) :
    Cells.sorted (c :: l) = true ↔ (∀ d ∈ l, c.1 < d.1) ∧ Cells.sorted l = true := by
  induction l generalizing c with
  | nil => simp [Cells.sorted]
  | cons d rest ih =>
    simp only [Cells.sorted, Bool.and_eq_true, decide_eq_true_eq, ih, List.mem_cons]
    constructor
    · rintro ⟨h1, h2, h3⟩
      refine ⟨?_, h2, h3⟩
      rintro x (rfl | hx)
      · exact h1
      · exact Nat.lt_trans h1 (h2 x hx)
    · rintro ⟨h1, h2, h3⟩
      exact ⟨h1 d (.inl rfl), h2, h3⟩

theorem Cells.sorted_filter (l : List Host.Cell) (p : Host.Cell → Bool) (h : Cells.sorted l = true) :
    Cells.sorted (l.filter p) = true := by
  induction l with
  | nil => simpa using h
  | cons c rest ih =>
    obtain ⟨h1, h2⟩ := (Cells.sorted_cons c rest).mp h
    by_cases hp : p c
    · simp only [List.filter_cons, hp, if_true, Cells.sorted_cons]
      exact ⟨fun d hd => h1 d (List.mem_filter.mp hd).1, ih h2⟩
    · simpa [List.filter_cons, hp] using ih h2

theorem Cells.mem_insert (l : List Host.Cell) (a : Nat) (v : Byte) (c : Host.Cell) :
    c ∈ Cells.insert l a v ↔ c = (a, v) ∨ c ∈ l := by
  induction l with
  | nil => simp [Cells.insert]
  | cons x rest ih =>
    obtain ⟨b, w⟩ := x
    unfold Cells.insert
    split
    · simp
    · simp only [List.mem_cons, ih]; tauto

theorem Cells.sorted_insert (l : List Host.Cell) (a : Nat) (v : Byte) (h : Cells.sorted l = true)
    (ha : ∀ x ∈ l, x.1 ≠ a) : Cells.sorted (Cells.insert l a v) = true := by
  induction l with
  | nil => simp [Cells.insert, Cells.sorted]
  | cons x rest ih =>
    obtain ⟨b, w⟩ := x
    obtain ⟨h1, h2⟩ := (Cells.sorted_cons _ _).mp h
    unfold Cells.insert
    split
    · rename_i hlt
      rw [Cells.sorted_cons]
      refine ⟨?_, h⟩
      intro d hd
      rcases List.mem_cons.mp hd with rfl | hd
      · exact hlt
      · exact Nat.lt_trans hlt (h1 d hd)
    · rename_i hlt
      have hne : b ≠ a := ha (b, w) (by simp)
      rw [Cells.sorted_cons]
      refine ⟨?_, ih h2 fun x hx => ha x (by simp [hx])⟩
      intro d hd
      rcases (Cells.mem_insert _ _ _ _).mp hd with rfl | hd
      · show b < a; omega
      · exact h1 d hd

theorem Cells.mem_set {l : List Host.Cell} {a : Nat} {v : Byte} {c : Host.Cell} (h : c ∈ Cells.set l a v) :
    (c = (a, v) ∧ v ≠ 0) ∨ c ∈ l := by
  unfold Cells.set at h
  by_cases hv : v = 0
  · rw [if_pos hv] at h; exact .inr (List.mem_filter.mp h).1
  · rw [if_neg hv, Cells.mem_insert] at h
    rcases h with h | h
    · exact .inl ⟨h, hv⟩
    · exact .inr (List.mem_filter.mp h).1

theorem Cells.sorted_set (l : List Host.Cell) (a : Nat) (v : Byte) (h : Cells.sorted l = true) :
    Cells.sorted (Cells.set l a v) = true := by
  unfold Cells.set
  by_cases hv : v = 0
  · simpa [hv] using Cells.sorted_filter _ _ h
  · simp only [hv, if_false]
    exact Cells.sorted_insert _ _ _ (Cells.sorted_filter _ _ h)
      fun x hx => by simpa using (List.mem_filter.mp hx).2

/-! ## Bytes -/

namespace Memory

@[simp] theorem setByte_regions (m : Memory) (a : Word) (v : Byte) : (m.setByte a v).regions = m.regions := by
  unfold setByte; split <;> rfl

@[simp] theorem setByte_mapped (m : Memory) (a b : Word) (v : Byte) : (m.setByte a v).mapped b = m.mapped b := by
  simp [mapped]

/-- A read of a byte after a write of one: the value where it was mapped, the old byte everywhere else (R103, R113). -/
theorem byte_setByte (m : Memory) (a b : Word) (v : Byte) :
    (m.setByte a v).byte b = if a = b ∧ m.mapped a = true then v else m.byte b := by
  unfold byte
  rw [setByte_mapped]
  by_cases hb : m.mapped b = true
  · by_cases ha : m.mapped a = true
    · simp only [setByte, ha, hb, if_true, Cells.get_set, and_true]
      by_cases hab : a = b
      · simp [hab]
      · have : a.toNat ≠ b.toNat := fun h => hab (BitVec.eq_of_toNat_eq h)
        simp [hab, this]
    · have hab : a ≠ b := fun h => ha (h ▸ hb)
      simp [setByte, ha, hab]
  · by_cases hab : a = b
    · subst hab; simp [hb]
    · simp [hb, hab]

@[simp] theorem byte_setByte_ne (m : Memory) {a b : Word} (v : Byte) (h : a ≠ b) : (m.setByte a v).byte b = m.byte b := by
  simp [byte_setByte, h]

/-- An unmapped byte reads 0 (R103). -/
theorem byte_unmapped (m : Memory) {a : Word} (h : m.mapped a = false) : m.byte a = 0 := by
  simp [byte, h]

/-- A write of an unmapped byte changes nothing (R103). -/
theorem setByte_unmapped (m : Memory) {a : Word} (v : Byte) (h : m.mapped a = false) : m.setByte a v = m := by
  simp [setByte, h]

/-- A write keeps the canonical form. -/
theorem wf_setByte (m : Memory) (a : Word) (v : Byte) (h : m.wf = true) : (m.setByte a v).wf = true := by
  by_cases ha : m.mapped a = true
  · simp only [wf, Bool.and_eq_true, List.all_eq_true] at h ⊢
    obtain ⟨⟨⟨⟨h1, h2⟩, h3⟩, h4⟩, h5⟩ := h
    simp only [setByte, ha, if_true]
    refine ⟨⟨⟨⟨h1, h2⟩, Cells.sorted_set _ _ _ h3⟩, ?_⟩, ?_⟩
    · intro c hc
      rcases Cells.mem_set hc with ⟨rfl, hv⟩ | hc
      · simpa using hv
      · exact h4 c hc
    · intro c hc
      rcases Cells.mem_set hc with ⟨rfl, _⟩ | hc
      · exact ha
      · exact h5 c hc
  · simpa [setByte, ha] using h

end Memory

/-- The collaborators' writes keep the canonical form (R125). -/
theorem collaboratorWrites_wf (l : List (Word × Byte)) (m : Memory) (h : m.wf = true) :
    (collaboratorWrites l m).wf = true := by
  induction l generalizing m with
  | nil => exact h
  | cons x rest ih => exact ih _ (m.wf_setByte _ _ h)

@[simp] theorem collaboratorWrites_regions (l : List (Word × Byte)) (m : Memory) :
    (collaboratorWrites l m).regions = m.regions := by
  induction l generalizing m with
  | nil => rfl
  | cons x rest ih => simp [collaboratorWrites, ih]

/-! ## Writes of every width -/

theorem State.memWrite16_mem (s : State) (a : Word) (v : Half) :
    (s.memWrite16 a v).mem =
      (s.mem.setByte (alignHalf a) (v.extractLsb' 0 8)).setByte (alignHalf a + 1) (v.extractLsb' 8 8) := rfl

theorem State.memWrite32_mem (s : State) (a v : Word) :
    (s.memWrite32 a v).mem =
      (((s.mem.setByte (alignWord a) (v.extractLsb' 0 8)).setByte (alignWord a + 1) (v.extractLsb' 8 8)).setByte
        (alignWord a + 2) (v.extractLsb' 16 8)).setByte (alignWord a + 3) (v.extractLsb' 24 8) := rfl

@[simp] theorem State.memWrite8_mapped (s : State) (a b : Word) (v : Byte) :
    (s.memWrite8 a v).mem.mapped b = s.mem.mapped b := by simp

@[simp] theorem State.memWrite16_mapped (s : State) (a b : Word) (v : Half) :
    (s.memWrite16 a v).mem.mapped b = s.mem.mapped b := by simp [State.memWrite16_mem]

@[simp] theorem State.memWrite32_mapped (s : State) (a b v : Word) :
    (s.memWrite32 a v).mem.mapped b = s.mem.mapped b := by simp [State.memWrite32_mem]

theorem offset_mapped (m : Memory) (c b d : Word) :
    (c + d = b ∧ m.mapped (c + d) = true) ↔ (b - c = d ∧ m.mapped b = true) := by
  have h : c + d = b ↔ b - c = d := by constructor <;> intro h <;> bv_omega
  constructor
  · rintro ⟨h1, h2⟩; exact ⟨h.mp h1, h1 ▸ h2⟩
  · rintro ⟨h1, h2⟩; exact ⟨h.mpr h1, (h.mpr h1).symm ▸ h2⟩

theorem offset_mapped0 (m : Memory) (c b : Word) :
    (c = b ∧ m.mapped c = true) ↔ (b - c = 0 ∧ m.mapped b = true) := by
  simpa using offset_mapped m c b 0

/-- What a word write leaves at every address: the byte of the value where one of its four bytes is mapped, else the old byte
(R103, R115). -/
theorem State.byte_memWrite32 (s : State) (a v b : Word) :
    (s.memWrite32 a v).mem.byte b =
      if (b - alignWord a).toNat < 4 ∧ s.mem.mapped b = true then v.extractLsb' (8 * (b - alignWord a).toNat) 8
      else s.mem.byte b := by
  rw [State.memWrite32_mem]
  generalize alignWord a = c
  simp only [Memory.byte_setByte, Memory.setByte_mapped, offset_mapped s.mem c b, offset_mapped0 s.mem c b]
  by_cases hm : s.mem.mapped b = true
  · by_cases hn : (b - c).toNat < 4
    · have h : b - c = 0 ∨ b - c = 1 ∨ b - c = 2 ∨ b - c = 3 := by bv_omega
      rcases h with h | h | h | h <;> simp [h, hm]
    · have h0 : b - c ≠ 0 := by bv_omega
      have h1 : b - c ≠ 1 := by bv_omega
      have h2 : b - c ≠ 2 := by bv_omega
      have h3 : b - c ≠ 3 := by bv_omega
      rw [if_neg (by tauto), if_neg (by tauto), if_neg (by tauto), if_neg (by tauto), if_neg (by tauto)]
  · rw [if_neg (by tauto), if_neg (by tauto), if_neg (by tauto), if_neg (by tauto), if_neg (by tauto)]

/-- What a halfword write leaves at every address (R103, R114). -/
theorem State.byte_memWrite16 (s : State) (a b : Word) (v : Half) :
    (s.memWrite16 a v).mem.byte b =
      if (b - alignHalf a).toNat < 2 ∧ s.mem.mapped b = true then v.extractLsb' (8 * (b - alignHalf a).toNat) 8
      else s.mem.byte b := by
  rw [State.memWrite16_mem]
  generalize alignHalf a = c
  simp only [Memory.byte_setByte, Memory.setByte_mapped, offset_mapped s.mem c b, offset_mapped0 s.mem c b]
  by_cases hm : s.mem.mapped b = true
  · by_cases hn : (b - c).toNat < 2
    · have h : b - c = 0 ∨ b - c = 1 := by bv_omega
      rcases h with h | h <;> simp [h, hm]
    · have h0 : b - c ≠ 0 := by bv_omega
      have h1 : b - c ≠ 1 := by bv_omega
      rw [if_neg (by tauto), if_neg (by tauto), if_neg (by tauto)]
  · rw [if_neg (by tauto), if_neg (by tauto), if_neg (by tauto)]

/-- What a byte write leaves at every address (R103, R113). -/
theorem State.byte_memWrite8 (s : State) (a b : Word) (v : Byte) :
    (s.memWrite8 a v).mem.byte b = if a = b ∧ s.mem.mapped a = true then v else s.mem.byte b := by
  simp [Memory.byte_setByte]

/-- A store keeps the canonical form, whatever its width. -/
theorem storeAt_wf (k : StoreKind) (a v : Word) (s : State) (h : s.mem.wf = true) : (storeAt k a v s).mem.wf = true := by
  cases k
  · simp only [storeAt, State.memWrite32_mem]
    exact Memory.wf_setByte _ _ _ (Memory.wf_setByte _ _ _ (Memory.wf_setByte _ _ _ (Memory.wf_setByte _ _ _ h)))
  · exact Memory.wf_setByte _ _ _ h
  · simp only [storeAt, State.memWrite16_mem]
    exact Memory.wf_setByte _ _ _ (Memory.wf_setByte _ _ _ h)

/-! ## The wait-state register -/

theorem reserved_append (x y : Byte) (h : x &&& 0xA0#8 = 0) : ((x ++ y : Half) &&& 0xA000#16) = 0 := by
  have e : (0xA000#16) = (0xA0#8 ++ 0#8) := by decide
  rw [e]
  refine (BitVec.and_append (x₁ := x) (x₂ := 0xA0#8) (y₁ := y) (y₂ := 0#8)).trans ?_
  rw [h, BitVec.and_zero]
  rfl

/-- A byte write of the core leaves bits 13 and 15 of the wait-state register 0 (R82, R83). -/
theorem waitcntAfter_reserved (wc : Half) (a : Word) (v : Byte) (h : wc &&& 0xA000#16 = 0) :
    State.waitcntAfter wc a v &&& 0xA000#16 = 0 := by
  unfold State.waitcntAfter
  split
  · apply reserved_append
    have e : wc.extractLsb' 8 8 &&& 0xA0#8 = (wc &&& 0xA000#16).extractLsb' 8 8 := by
      rw [BitVec.extractLsb'_and]; rfl
    rw [e, h]; rfl
  · split
    · apply reserved_append
      rw [BitVec.and_assoc]
      simp
    · exact h

end Sys2Proof.Machine
end

