-- ==== Sys2Proof/Laws/Registers.lean ====
section
/-! SUPPORT. The laws of the registers and of the status registers: reads after writes, and the fields of a PSR after each update. -/

namespace Sys2Proof.Machine

/-! ## Modes -/

@[simp] theorem Mode.ofBits?_bits (m : Mode) : Mode.ofBits? m.bits = some m := by cases m <;> rfl

theorem Mode.bits_of_ofBits? {b : BitVec 5} {m : Mode} (h : Mode.ofBits? b = some m) : m.bits = b := by
  revert h; revert b; cases m <;> decide

/-! ## Physical registers -/

/-- In one mode, two visible registers never name one physical register (R54). -/
theorem phys_injective (m : Mode) (a b : Reg) : phys a m = phys b m ↔ a = b := by
  revert a b; cases m <;> decide

@[simp] theorem phys_eq_pc (n : Reg) (m : Mode) : phys n m = .pc ↔ n = 15 := by
  revert n; cases m <;> decide

@[simp] theorem phys_pc (m : Mode) : phys 15 m = .pc := by cases m <;> rfl

@[simp] theorem lo_ne_pc (r : LoReg) : lo r ≠ 15 := by revert r; decide

/-- A read of a general register after a write of one (R55). -/
theorem State.readPhys_writePhys (s : State) (q r : PhysReg) (v : Word) (hq : q ≠ .pc) :
    (s.writePhys r v).readPhys q = if r = q then v else s.readPhys q := by
  cases r <;> cases q <;> simp_all [State.writePhys, State.readPhys, Vector.getElem_set, Fin.ext_iff]

@[simp] theorem State.readPhys_writePhys_ne (s : State) {q r : PhysReg} (v : Word) (hq : q ≠ .pc) (h : r ≠ q) :
    (s.writePhys r v).readPhys q = s.readPhys q := by
  rw [State.readPhys_writePhys _ _ _ _ hq, if_neg h]

/-- A read of a general register sees nothing but the register file. -/
theorem State.readPhys_congr {s t : State} (h : t.regs = s.regs) {r : PhysReg} (hr : r ≠ .pc) :
    t.readPhys r = s.readPhys r := by
  cases r <;> simp_all [State.readPhys]

/-- The mode is a function of the CPSR. -/
theorem State.mode_congr {s t : State} (h : psrM t.cpsr = psrM s.cpsr) : t.mode = s.mode := by
  simp [State.mode, h]

/-- The instruction set is a function of the CPSR. -/
theorem State.thumb_congr {s t : State} (h : t.cpsr = s.cpsr) : t.thumb = s.thumb := by
  simp [State.thumb, h]

theorem State.ilen_congr {s t : State} (h : t.cpsr = s.cpsr) : t.ilen = s.ilen := by
  simp [State.ilen, State.thumb_congr h]

theorem State.alignPc_congr {s t : State} (h : t.cpsr = s.cpsr) (v : Word) : t.alignPc v = s.alignPc v := by
  simp [State.alignPc, State.thumb_congr h]

/-- A read of a visible register sees the register file, the pc and the CPSR. -/
theorem State.readReg_congr {s t : State} (hr : t.regs = s.regs) (hp : t.pc = s.pc) (hc : t.cpsr = s.cpsr) (n : Reg) :
    t.readReg n = s.readReg n := by
  have hm : t.mode = s.mode := State.mode_congr (by rw [hc])
  unfold State.readReg State.readBank
  rw [hm]
  by_cases h : phys n s.mode = .pc
  · simp [h, State.readPhys, State.pcRead, State.thumb_congr hc, hp]
  · exact State.readPhys_congr hr h

@[simp] theorem State.mode_writeReg (s : State) (n : Reg) (v : Word) : (s.writeReg n v).mode = s.mode :=
  State.mode_congr (by simp)

@[simp] theorem State.mode_writeBank (s : State) (m : Mode) (n : Reg) (v : Word) : (s.writeBank m n v).mode = s.mode :=
  State.mode_congr (by simp)

/-- A read of a visible register other than R15 after a write of one (R55). -/
theorem State.readReg_writeReg (s : State) (n k : Reg) (v : Word) (hk : k ≠ 15) :
    (s.writeReg n v).readReg k = if n = k then v else s.readReg k := by
  unfold State.readReg State.readBank
  rw [State.mode_writeReg]
  unfold State.writeReg State.writeBank
  rw [State.readPhys_writePhys _ _ _ _ (by simpa using hk)]
  simp [phys_injective]

/-- A write of R15 is a branch (R66). -/
theorem State.writeReg_pc (s : State) (v : Word) : s.writeReg 15 v = s.writePc v := by
  simp [State.writeReg, State.writeBank, State.writePhys]

/-- A write of another register leaves the pc. -/
theorem State.pc_writeReg (s : State) {n : Reg} (v : Word) (hn : n ≠ 15) : (s.writeReg n v).pc = s.pc := by
  have h : phys n s.mode ≠ .pc := by simpa using hn
  unfold State.writeReg State.writeBank
  cases hp : phys n s.mode <;> simp_all [State.writePhys]

/-! ## The pc -/

theorem State.alignPc_idem (s : State) (v : Word) : s.alignPc (s.alignPc v) = s.alignPc v := by
  unfold State.alignPc; split <;> simp [BitVec.and_assoc]

/-! ## Fields of a PSR -/

theorem extract_extract (x : Word) {a b c d : Nat} (h : c + d ≤ b) :
    (x.extractLsb' a b).extractLsb' c d = x.extractLsb' (a + c) d := by
  apply BitVec.eq_of_getLsbD_eq
  intro i hi
  simp only [BitVec.getLsbD_extractLsb', hi, decide_true, Bool.true_and]
  rw [decide_eq_true (by omega), Bool.true_and, Nat.add_assoc]

@[simp] theorem psrN_withFlags (p : Word) (n z c v : Bool) : psrN (psrWithFlags p n z c v) = n := by
  simp only [psrN, psrWithFlags, BitVec.getLsbD_append, BitVec.getLsbD_ofBool]; simp

@[simp] theorem psrZ_withFlags (p : Word) (n z c v : Bool) : psrZ (psrWithFlags p n z c v) = z := by
  simp only [psrZ, psrWithFlags, BitVec.getLsbD_append, BitVec.getLsbD_ofBool]; simp

@[simp] theorem psrC_withFlags (p : Word) (n z c v : Bool) : psrC (psrWithFlags p n z c v) = c := by
  simp only [psrC, psrWithFlags, BitVec.getLsbD_append, BitVec.getLsbD_ofBool]; simp

@[simp] theorem psrV_withFlags (p : Word) (n z c v : Bool) : psrV (psrWithFlags p n z c v) = v := by
  simp only [psrV, psrWithFlags, BitVec.getLsbD_append, BitVec.getLsbD_ofBool]; simp

/-- The flags alone change: the 28 bits below them stay. -/
@[simp] theorem low_withFlags (p : Word) (n z c v : Bool) :
    (psrWithFlags p n z c v).extractLsb' 0 28 = p.extractLsb' 0 28 := by
  unfold psrWithFlags
  exact BitVec.extractLsb'_append_eq_right

theorem getLsbD_withFlags (p : Word) (n z c v : Bool) {i : Nat} (hi : i < 28) :
    (psrWithFlags p n z c v).getLsbD i = p.getLsbD i := by
  have h := congrArg (fun x => x.getLsbD i) (low_withFlags p n z c v)
  simpa only [BitVec.getLsbD_extractLsb', hi, decide_true, Bool.true_and, Nat.zero_add] using h

@[simp] theorem psrT_withFlags (p : Word) (n z c v : Bool) : psrT (psrWithFlags p n z c v) = psrT p :=
  getLsbD_withFlags p n z c v (by decide)

@[simp] theorem psrI_withFlags (p : Word) (n z c v : Bool) : psrI (psrWithFlags p n z c v) = psrI p :=
  getLsbD_withFlags p n z c v (by decide)

@[simp] theorem psrF_withFlags (p : Word) (n z c v : Bool) : psrF (psrWithFlags p n z c v) = psrF p :=
  getLsbD_withFlags p n z c v (by decide)

@[simp] theorem psrM_withFlags (p : Word) (n z c v : Bool) : psrM (psrWithFlags p n z c v) = psrM p := by
  have h := congrArg (fun x => x.extractLsb' 0 5) (low_withFlags p n z c v)
  simpa only [psrM, extract_extract _ (show 0 + 5 ≤ 28 by decide)] using h

@[simp] theorem psrM_withControl (p : Word) (i f t : Bool) (m : BitVec 5) : psrM (psrWithControl p i f t m) = m := by
  unfold psrM psrWithControl
  exact BitVec.extractLsb'_append_eq_right

@[simp] theorem psrT_withControl (p : Word) (i f t : Bool) (m : BitVec 5) : psrT (psrWithControl p i f t m) = t := by
  simp only [psrT, psrWithControl, BitVec.getLsbD_append, BitVec.getLsbD_ofBool]; simp

@[simp] theorem psrF_withControl (p : Word) (i f t : Bool) (m : BitVec 5) : psrF (psrWithControl p i f t m) = f := by
  simp only [psrF, psrWithControl, BitVec.getLsbD_append, BitVec.getLsbD_ofBool]; simp

@[simp] theorem psrI_withControl (p : Word) (i f t : Bool) (m : BitVec 5) : psrI (psrWithControl p i f t m) = i := by
  simp only [psrI, psrWithControl, BitVec.getLsbD_append, BitVec.getLsbD_ofBool]; simp

/-- The control byte alone changes: the 24 bits above it stay. -/
@[simp] theorem high_withControl (p : Word) (i f t : Bool) (m : BitVec 5) :
    (psrWithControl p i f t m).extractLsb' 8 24 = p.extractLsb' 8 24 := by
  have h : psrWithControl p i f t m =
      p.extractLsb' 8 24 ++ (BitVec.ofBool i ++ BitVec.ofBool f ++ BitVec.ofBool t ++ m : BitVec 8) := by
    apply BitVec.eq_of_getLsbD_eq
    intro k hk
    simp only [psrWithControl, BitVec.getLsbD_append]
    by_cases h5 : k < 5
    · simp [h5, show k < 8 by omega]
    · by_cases h6 : k < 6
      · simp [show k = 5 by omega]
      · by_cases h7 : k < 7
        · simp [show k = 6 by omega]
        · by_cases h8 : k < 8
          · simp [show k = 7 by omega]
          · simp only [h5, h8, if_false, show ¬ (k - 5 < 1) by omega, show ¬ (k - 5 - 1 < 1) by omega,
              show ¬ (k - 5 - 1 - 1 < 1) by omega, show k - 5 - 1 - 1 - 1 = k - 8 by omega]
  rw [h]
  exact BitVec.extractLsb'_append_eq_left

theorem getLsbD_withControl (p : Word) (i f t : Bool) (m : BitVec 5) {k : Nat} (hk : 8 ≤ k) :
    (psrWithControl p i f t m).getLsbD k = p.getLsbD k := by
  by_cases h32 : k < 32
  · have h := congrArg (fun x => x.getLsbD (k - 8)) (high_withControl p i f t m)
    have e : 8 + (k - 8) = k := by omega
    have l : k - 8 < 24 := by omega
    simpa only [BitVec.getLsbD_extractLsb', e, l, decide_true, Bool.true_and] using h
  · rw [BitVec.getLsbD_of_ge _ _ (by omega), BitVec.getLsbD_of_ge _ _ (by omega)]

@[simp] theorem psrN_withControl (p : Word) (i f t : Bool) (m : BitVec 5) : psrN (psrWithControl p i f t m) = psrN p :=
  getLsbD_withControl p i f t m (by decide)

@[simp] theorem psrZ_withControl (p : Word) (i f t : Bool) (m : BitVec 5) : psrZ (psrWithControl p i f t m) = psrZ p :=
  getLsbD_withControl p i f t m (by decide)

@[simp] theorem psrC_withControl (p : Word) (i f t : Bool) (m : BitVec 5) : psrC (psrWithControl p i f t m) = psrC p :=
  getLsbD_withControl p i f t m (by decide)

@[simp] theorem psrV_withControl (p : Word) (i f t : Bool) (m : BitVec 5) : psrV (psrWithControl p i f t m) = psrV p :=
  getLsbD_withControl p i f t m (by decide)

/-! ## The implemented bits -/

theorem implemented_getLsbD (p : Word) {i : Nat} (h : psrImplemented.getLsbD i = true) :
    (p &&& psrImplemented).getLsbD i = p.getLsbD i := by
  simp [h]

@[simp] theorem psrN_implemented (p : Word) : psrN (p &&& psrImplemented) = psrN p := implemented_getLsbD p (by decide)
@[simp] theorem psrZ_implemented (p : Word) : psrZ (p &&& psrImplemented) = psrZ p := implemented_getLsbD p (by decide)
@[simp] theorem psrC_implemented (p : Word) : psrC (p &&& psrImplemented) = psrC p := implemented_getLsbD p (by decide)
@[simp] theorem psrV_implemented (p : Word) : psrV (p &&& psrImplemented) = psrV p := implemented_getLsbD p (by decide)
@[simp] theorem psrI_implemented (p : Word) : psrI (p &&& psrImplemented) = psrI p := implemented_getLsbD p (by decide)
@[simp] theorem psrF_implemented (p : Word) : psrF (p &&& psrImplemented) = psrF p := implemented_getLsbD p (by decide)
@[simp] theorem psrT_implemented (p : Word) : psrT (p &&& psrImplemented) = psrT p := implemented_getLsbD p (by decide)

@[simp] theorem psrM_implemented (p : Word) : psrM (p &&& psrImplemented) = psrM p := by
  have e : psrImplemented.extractLsb' 0 5 = BitVec.allOnes 5 := by decide
  rw [psrM, BitVec.extractLsb'_and, e, BitVec.and_allOnes, psrM]

@[simp] theorem reserved_implemented (p : Word) : psrReserved (p &&& psrImplemented) = 0 := by
  simp [psrReserved, BitVec.and_assoc]

/-- A PSR whose reserved bits are 0 is what it reads as (R71). -/
theorem implemented_of_reserved {p : Word} (h : psrReserved p = 0) : p &&& psrImplemented = p := by
  have e : p = (p &&& psrImplemented) ||| (p &&& ~~~psrImplemented) := by
    rw [← BitVec.and_or_distrib_left, show psrImplemented ||| ~~~psrImplemented = BitVec.allOnes 32 by decide, BitVec.and_allOnes]
  unfold psrReserved at h
  rw [h] at e
  simpa using e.symm

theorem reserved_iff (p : Word) : psrReserved p = 0#32 ↔ p.extractLsb' 8 20 = 0 := by
  constructor
  · intro h
    have e : ((p &&& ~~~psrImplemented).extractLsb' 8 20) = p.extractLsb' 8 20 := by
      rw [BitVec.extractLsb'_and]
      have : (~~~psrImplemented).extractLsb' 8 20 = BitVec.allOnes 20 := by decide
      rw [this, BitVec.and_allOnes]
    rw [← e, show p &&& ~~~psrImplemented = 0 from h]; rfl
  · intro h
    apply BitVec.eq_of_getLsbD_eq
    intro i hi
    have hb : ∀ j < 20, p.getLsbD (8 + j) = false := by
      intro j hj
      have := congrArg (fun x => x.getLsbD j) h
      simpa [hj] using this
    by_cases h8 : 8 ≤ i ∧ i < 28
    · have := hb (i - 8) (by omega)
      rw [show 8 + (i - 8) = i by omega] at this
      simp [psrReserved, this]
    · have : (~~~psrImplemented).getLsbD i = false := by
        have hd : ∀ j : Fin 32, ¬ (8 ≤ j.val ∧ j.val < 28) → (~~~psrImplemented).getLsbD j.val = false := by decide
        exact hd ⟨i, hi⟩ h8
      simp only [psrReserved, BitVec.getLsbD_and, this]; simp

@[simp] theorem reserved_withFlags (p : Word) (n z c v : Bool) :
    psrReserved (psrWithFlags p n z c v) = 0#32 ↔ psrReserved p = 0#32 := by
  rw [reserved_iff, reserved_iff]
  have h := congrArg (fun x => x.extractLsb' 8 20) (low_withFlags p n z c v)
  have e : (psrWithFlags p n z c v).extractLsb' 8 20 = p.extractLsb' 8 20 := by
    simpa only [extract_extract _ (show 8 + 20 ≤ 28 by decide)] using h
  rw [e]

@[simp] theorem reserved_withControl (p : Word) (i f t : Bool) (m : BitVec 5) :
    psrReserved (psrWithControl p i f t m) = 0#32 ↔ psrReserved p = 0#32 := by
  rw [reserved_iff, reserved_iff]
  have h := congrArg (fun x => x.extractLsb' 0 20) (high_withControl p i f t m)
  have e : (psrWithControl p i f t m).extractLsb' 8 20 = p.extractLsb' 8 20 := by
    simpa only [extract_extract _ (show 0 + 20 ≤ 24 by decide)] using h
  rw [e]

/-! ## Modes, flags and instruction set after an update -/

@[simp] theorem State.mode_writeFlags (s : State) (n z c v : Bool) : (s.writeFlags n z c v).mode = s.mode :=
  State.mode_congr (by simp)

@[simp] theorem State.thumb_writeFlags (s : State) (n z c v : Bool) : (s.writeFlags n z c v).thumb = s.thumb := by
  simp [State.thumb]

@[simp] theorem State.mode_writeThumb (s : State) (t : Bool) : (s.writeThumb t).mode = s.mode :=
  State.mode_congr (by simp)

@[simp] theorem State.thumb_writeThumb (s : State) (t : Bool) : (s.writeThumb t).thumb = t := by
  simp [State.thumb]

theorem State.mode_takeException (s : State) (m : Mode) (vec lr : Word) (f : Bool) :
    (s.takeException m vec lr f).mode = m := by
  simp [State.takeException, State.mode]

end Sys2Proof.Machine
end

