-- ==== Sys2Proof/Laws/Ops.lean ====
section
/-! SUPPORT. For each shared operation, what it can answer: the checks, the conditions, and the bodies of the families. -/

namespace Sys2Proof.Machine

/-! ## Checks -/

theorem checked_next {s t : State} {bad : Bool} {c : UnpredictableCase} {k : Result} :
    s.checked bad c k = .next t ↔ (s.config.strictUnpredictable && bad) = false ∧ k = .next t := by
  unfold State.checked; split <;> simp_all

theorem checked_pass {s : State} {bad : Bool} {c : UnpredictableCase} {k : Result}
    (h : (s.config.strictUnpredictable && bad) = false) : s.checked bad c k = k := by
  simp [State.checked, h]

theorem checked_stop {s : State} {bad : Bool} {c : UnpredictableCase} {k : Result}
    (h : s.config.strictUnpredictable = true) (hb : bad = true) : s.checked bad c k = .fault (.unpredictable c) := by
  simp [State.checked, h, hb]

theorem checkedPrefetch_next {s t : State} {hit : Bool} {k : Result} :
    s.checkedPrefetch hit k = .next t ↔ ¬ (s.config.prefetchHazard = .fault ∧ hit = true) ∧ k = .next t := by
  unfold State.checkedPrefetch; split <;> simp_all

theorem checkedPrefetch_pass {s : State} {hit : Bool} {k : Result}
    (h : ¬ (s.config.prefetchHazard = .fault ∧ hit = true)) : s.checkedPrefetch hit k = k := by
  simp [State.checkedPrefetch, h]

/-- A return that goes on found an SPSR whose mode field names a mode (R265, R352). -/
theorem withReturnPsr_next {s t : State} {k : Word → Result} :
    s.withReturnPsr k = .next t ↔ ∃ p m, s.spsr = some p ∧ Mode.ofBits? (psrM p) = some m ∧ k p = .next t := by
  unfold State.withReturnPsr
  cases h : s.spsr with
  | none => simp
  | some p => cases h2 : Mode.ofBits? (psrM p) <;> simp [h2]

theorem withReturnPsr_pass {s : State} {k : Word → Result} {p : Word} {m : Mode} (h : s.spsr = some p)
    (hm : Mode.ofBits? (psrM p) = some m) : s.withReturnPsr k = k p := by
  simp [State.withReturnPsr, h, hm]

/-- An SPSR, as it reads, has its reserved bits 0 (R71). -/
theorem spsr_reserved {s : State} {p : Word} (h : s.spsr = some p) : psrReserved p = 0 := by
  unfold State.spsr at h
  cases hm : s.mode <;> rw [hm] at h <;> simp [State.spsrOf] at h <;> rw [← h] <;> exact reserved_implemented _

/-! ## Conditions -/

/-- What a conditional instruction can answer (R221). -/
theorem conditional_next {c : Cond} {s t : State} {body : Result} :
    conditional c s body = .next t →
      (s.condPasses c = true ∧ body = .next t) ∨ (s.condPasses c = false ∧ t = s.chargeCondFail.advance) := by
  unfold conditional
  split
  · simp
  · split
    · rename_i h; exact fun hb => .inl ⟨h, hb⟩
    · rename_i h
      intro hb
      exact .inr ⟨by simpa using h, by simpa using hb.symm⟩

theorem conditional_pass {c : Cond} {s : State} {body : Result} (h : s.condPasses c = true) :
    conditional c s body = body := by
  have hn : c ≠ .nv := by rintro rfl; simp [State.condPasses, condHolds] at h
  simp [conditional, h, hn]

theorem conditional_fail {c : Cond} {s : State} {body : Result} (h : s.condPasses c = false)
    (hn : c ≠ .nv ∨ s.config.nvCond = .never) : conditional c s body = .next s.chargeCondFail.advance := by
  unfold conditional
  rw [if_neg, if_neg (by simp [h])]
  rcases hn with hn | hn
  · exact fun hc => hn hc.1
  · exact fun hc => by simp [hn] at hc

/-! ## Flags -/

@[simp] theorem setAluFlags_fields (s : State) (r : AluOut) :
    s.setAluFlags r = s.writeFlags r.res.msb (r.res == 0) r.carry r.overflow := rfl

@[simp] theorem flagN_writeFlags (s : State) (n z c v : Bool) : (s.writeFlags n z c v).flagN = n := by simp [State.flagN]
@[simp] theorem flagZ_writeFlags (s : State) (n z c v : Bool) : (s.writeFlags n z c v).flagZ = z := by simp [State.flagZ]
@[simp] theorem flagC_writeFlags (s : State) (n z c v : Bool) : (s.writeFlags n z c v).flagC = c := by simp [State.flagC]
@[simp] theorem flagV_writeFlags (s : State) (n z c v : Bool) : (s.writeFlags n z c v).flagV = v := by simp [State.flagV]

/-- The flags are a function of the CPSR. -/
theorem flags_congr {s t : State} (h : t.cpsr = s.cpsr) :
    t.flagN = s.flagN ∧ t.flagZ = s.flagZ ∧ t.flagC = s.flagC ∧ t.flagV = s.flagV := by
  simp [State.flagN, State.flagZ, State.flagC, State.flagV, h]

/-! ## Register lists -/

theorem mem_regsOf {list : BitVec 16} {r : Reg} : r ∈ regsOf list ↔ list.getLsbD r.val = true := by
  simp [regsOf]

theorem regsOf_sorted (list : BitVec 16) : (regsOf list).Pairwise (· < ·) := by
  have h : (List.finRange 16).Pairwise (· < ·) := by decide
  exact List.Pairwise.filter _ h

theorem regsOf_nodup (list : BitVec 16) : (regsOf list).Nodup :=
  (regsOf_sorted list).imp fun h => Fin.ne_of_lt h

theorem regsOf_length_le (list : BitVec 16) : (regsOf list).length ≤ 16 := by
  have := List.length_filter_le (fun r : Reg => list.getLsbD r.val) (List.finRange 16)
  simpa [regsOf] using this

/-! ## Block transfers -/

/-- Loads of listed registers change the register file alone, when R15 is not listed. -/
theorem loadRegs_fields (m : Mode) (a : Word) (l : List Reg) (t : State) :
    (loadRegs m a l t).cpsr = t.cpsr ∧ (loadRegs m a l t).mem = t.mem ∧ (loadRegs m a l t).waitcnt = t.waitcnt ∧
      (loadRegs m a l t).spsrFiq = t.spsrFiq ∧ (loadRegs m a l t).spsrIrq = t.spsrIrq ∧
      (loadRegs m a l t).spsrSvc = t.spsrSvc ∧ (loadRegs m a l t).spsrAbt = t.spsrAbt ∧
      (loadRegs m a l t).spsrUnd = t.spsrUnd ∧ (loadRegs m a l t).config = t.config ∧
      (loadRegs m a l t).env = t.env ∧ (loadRegs m a l t).cyclesOut = t.cyclesOut ∧
      (loadRegs m a l t).cycles = t.cycles := by
  induction l generalizing a t with
  | nil => simp [loadRegs]
  | cons r rest ih =>
    have h := ih (a + 4) (t.writeBank m r (t.memRead32 (alignWord a)))
    simpa [loadRegs] using h

theorem loadRegs_pc (m : Mode) (a : Word) (l : List Reg) (t : State) (h : ∀ r ∈ l, r ≠ 15) :
    (loadRegs m a l t).pc = t.pc := by
  induction l generalizing a t with
  | nil => rfl
  | cons r rest ih =>
    rw [loadRegs, ih _ _ fun x hx => h x (by simp [hx])]
    have hr : phys r m ≠ .pc := by simpa using h r (by simp)
    unfold State.writeBank
    cases hp : phys r m <;> simp_all [State.writePhys]

/-- A register that is not among the loaded ones keeps its value (R342). -/
theorem loadRegs_kept (m : Mode) (a : Word) (l : List Reg) (t : State) {q : PhysReg} (hq : q ≠ .pc)
    (h : q ∉ l.map fun r => phys r m) : (loadRegs m a l t).readPhys q = t.readPhys q := by
  induction l generalizing a t with
  | nil => rfl
  | cons r rest ih =>
    simp only [List.map_cons, List.mem_cons, not_or] at h
    rw [loadRegs, ih _ _ h.2]
    exact State.readPhys_writePhys_ne _ _ hq fun e => h.1 e.symm

theorem memRead32_congr {s t : State} (h : t.mem = s.mem) (a : Word) : t.memRead32 a = s.memRead32 a := by
  simp [State.memRead32, h]

/-- The k-th listed register holds the word at the k-th address (R340, R342). -/
theorem loadRegs_loaded (m : Mode) (a : Word) (l : List Reg) (t : State) (hn : l.Nodup) (hpc : ∀ r ∈ l, r ≠ 15) {k : Nat}
    (hk : k < l.length) :
    (loadRegs m a l t).readPhys (phys l[k] m) = t.memRead32 (alignWord (a + BitVec.ofNat 32 (4 * k))) := by
  induction l generalizing a t k with
  | nil => simp at hk
  | cons r rest ih =>
    have hr : phys r m ≠ .pc := by simpa using hpc r (by simp)
    obtain ⟨hn1, hn2⟩ := List.nodup_cons.mp hn
    cases k with
    | zero =>
      rw [loadRegs, loadRegs_kept _ _ _ _ (by simpa using hr)]
      · simp [State.writeBank, State.readPhys_writePhys _ _ _ _ hr]
      · simp only [List.getElem_cons_zero, List.mem_map, not_exists, not_and]
        intro x hx e
        exact hn1 ((phys_injective m x r).mp e ▸ hx)
    | succ k =>
      have := ih (a + 4) (t.writeBank m r (t.memRead32 (alignWord a))) hn2 (fun x hx => hpc x (by simp [hx]))
        (k := k) (by simpa using hk)
      rw [loadRegs]
      simp only [List.getElem_cons_succ]
      rw [this, memRead32_congr (s := t) (by simp)]
      have e : a + 4 + BitVec.ofNat 32 (4 * k) = a + BitVec.ofNat 32 (4 * (k + 1)) := by
        apply BitVec.eq_of_toNat_eq; simp; omega
      rw [e]

/-- Stores of listed registers change memory, the wait-state register and the cycle clock alone. -/
theorem storeRegs_fields (val : Reg → Word) (a : Word) (k : AccessClass) (l : List Reg) (t : State) :
    (storeRegs val a k l t).regs = t.regs ∧ (storeRegs val a k l t).pc = t.pc ∧
      (storeRegs val a k l t).cpsr = t.cpsr ∧
      (storeRegs val a k l t).spsrFiq = t.spsrFiq ∧ (storeRegs val a k l t).spsrIrq = t.spsrIrq ∧
      (storeRegs val a k l t).spsrSvc = t.spsrSvc ∧ (storeRegs val a k l t).spsrAbt = t.spsrAbt ∧
      (storeRegs val a k l t).spsrUnd = t.spsrUnd ∧ (storeRegs val a k l t).config = t.config ∧
      (storeRegs val a k l t).env = t.env ∧ (storeRegs val a k l t).cyclesOut = t.cyclesOut ∧
      (storeRegs val a k l t).mem.regions = t.mem.regions := by
  induction l generalizing a k t with
  | nil => simp [storeRegs]
  | cons r rest ih =>
    have h := ih (a + 4) .S ((t.charge (alignWord a) .w32 k).memWrite32 (alignWord a) (val r))
    simpa [storeRegs, State.memWrite32_mem] using h

theorem alignWord_idem (a : Word) : alignWord (alignWord a) = alignWord a := by
  simp [alignWord, BitVec.and_assoc]

theorem alignHalf_idem (a : Word) : alignHalf (alignHalf a) = alignHalf a := by
  simp [alignHalf, BitVec.and_assoc]

theorem alignWord_add4 (a b : Word) : alignWord (a + 4 + b) = alignWord (a + (4 + b)) := by
  rw [BitVec.add_assoc]

/-- A byte outside the stored words keeps its value (R344). -/
theorem storeRegs_kept (val : Reg → Word) (a : Word) (k : AccessClass) (l : List Reg) (t : State) (b : Word)
    (h : ∀ j < l.length, ¬ (b - alignWord (a + BitVec.ofNat 32 (4 * j))).toNat < 4) :
    (storeRegs val a k l t).mem.byte b = t.mem.byte b := by
  induction l generalizing a k t with
  | nil => rfl
  | cons r rest ih =>
    rw [storeRegs, ih]
    · rw [State.byte_memWrite32, if_neg]
      · rfl
      · rintro ⟨h1, -⟩
        rw [alignWord_idem] at h1
        exact h 0 (by simp) (by simpa using h1)
    · intro j hj
      have := h (j + 1) (by simpa using hj)
      have e : a + 4 + BitVec.ofNat 32 (4 * j) = a + BitVec.ofNat 32 (4 * (j + 1)) := by
        apply BitVec.eq_of_toNat_eq; simp; omega
      rwa [e]

/-- The wait-state register keeps its value when no store reaches it (R83, R116). -/
theorem waitcnt_memWrite32 (s : State) (a v : Word) (h4 : ¬ (0x04000204#32 - alignWord a).toNat < 4)
    (h5 : ¬ (0x04000205#32 - alignWord a).toNat < 4) : (s.memWrite32 a v).waitcnt = s.waitcnt := by
  have e : ∀ (d : Word) (w : Half) (x : Byte), d.toNat < 4 →
      State.waitcntAfter w (alignWord a + d) x = w := by
    intro d w x hd
    unfold State.waitcntAfter
    rw [if_neg, if_neg]
    · intro hc; apply h5; rw [← hc]; bv_omega
    · intro hc; apply h4; rw [← hc]; bv_omega
  have e0 : ∀ (w : Half) (x : Byte), State.waitcntAfter w (alignWord a) x = w := fun w x => by
    have := e 0#32 w x (by decide)
    rwa [BitVec.add_zero] at this
  have e1 := e 1
  have e2 := e 2
  have e3 := e 3
  simp only [State.memWrite32, State.writeByte]
  rw [e3 _ _ (by decide), e2 _ _ (by decide), e1 _ _ (by decide), e0]

theorem waitcnt_memWrite16 (s : State) (a : Word) (v : Half) (h4 : ¬ (0x04000204#32 - alignHalf a).toNat < 2)
    (h5 : ¬ (0x04000205#32 - alignHalf a).toNat < 2) : (s.memWrite16 a v).waitcnt = s.waitcnt := by
  have e : ∀ (d : Word) (w : Half) (x : Byte), d.toNat < 2 →
      State.waitcntAfter w (alignHalf a + d) x = w := by
    intro d w x hd
    unfold State.waitcntAfter
    rw [if_neg, if_neg]
    · intro hc; apply h5; rw [← hc]; bv_omega
    · intro hc; apply h4; rw [← hc]; bv_omega
  have e0 : ∀ (w : Half) (x : Byte), State.waitcntAfter w (alignHalf a) x = w := fun w x => by
    have := e 0#32 w x (by decide)
    rwa [BitVec.add_zero] at this
  have e1 := e 1
  simp only [State.memWrite16, State.writeByte]
  rw [e1 _ _ (by decide), e0]

theorem offset_succ (a : Word) (j : Nat) : a + 4 + BitVec.ofNat 32 (4 * j) = a + BitVec.ofNat 32 (4 * (j + 1)) := by
  apply BitVec.eq_of_toNat_eq; simp; omega

theorem offset_zero (a : Word) : a + BitVec.ofNat 32 (4 * 0) = a := BitVec.add_zero a

theorem storeRegs_waitcnt (val : Reg → Word) (a : Word) (k : AccessClass) (l : List Reg) (t : State)
    (h4 : ∀ j < l.length, ¬ (0x04000204#32 - alignWord (a + BitVec.ofNat 32 (4 * j))).toNat < 4)
    (h5 : ∀ j < l.length, ¬ (0x04000205#32 - alignWord (a + BitVec.ofNat 32 (4 * j))).toNat < 4) :
    (storeRegs val a k l t).waitcnt = t.waitcnt := by
  induction l generalizing a k t with
  | nil => rfl
  | cons r rest ih =>
    have g4 := h4 0 (Nat.succ_pos _)
    have g5 := h5 0 (Nat.succ_pos _)
    rw [offset_zero, ← alignWord_idem] at g4 g5
    rw [storeRegs, ih, waitcnt_memWrite32 _ _ _ g4 g5, State.charge_waitcnt]
    · intro j hj
      rw [offset_succ]
      exact h4 (j + 1) (Nat.succ_lt_succ hj)
    · intro j hj
      rw [offset_succ]
      exact h5 (j + 1) (Nat.succ_lt_succ hj)

/-- Stores of listed registers keep the canonical form of memory. -/
theorem storeRegs_wf (val : Reg → Word) (a : Word) (k : AccessClass) (l : List Reg) (t : State) (h : t.mem.wf = true) :
    (storeRegs val a k l t).mem.wf = true := by
  induction l generalizing a k t with
  | nil => exact h
  | cons r rest ih => exact ih _ _ _ (storeAt_wf .word _ _ _ h)

end Sys2Proof.Machine
end

