-- ==== Sys2Proof/Laws/Frame.lean ====
section
/-! SUPPORT. The frame of each shared operation: what it leaves unchanged, composed from the frames of its parts. -/

namespace Sys2Proof.Machine

/-- All that stays under the effects. -/
structure Framed (e : Effects) (s t : State) : Prop where
  regs : RegsKept e s t
  flags : FlagsKept e s t
  control : ControlKept e s t
  spsrs : SpsrsKept e s t
  memory : MemoryKept e s t
  inputs : InputsKept s t

namespace Framed

theorem refl (e : Effects) (s : State) : Framed e s s :=
  ⟨fun _ _ _ => rfl, by simp [FlagsKept], fun _ => rfl, fun _ => by simp, ⟨fun _ _ => rfl, rfl, fun _ _ => rfl⟩, by simp [InputsKept]⟩

theorem trans {e : Effects} {s t u : State} (h : Framed e s t) (k : Framed e t u) : Framed e s u where
  regs r hr he := (k.regs r hr he).trans (h.regs r hr he)
  flags :=
    ⟨fun he => (k.flags.1 he).trans (h.flags.1 he), fun he => (k.flags.2.1 he).trans (h.flags.2.1 he),
      fun he => (k.flags.2.2.1 he).trans (h.flags.2.2.1 he), fun he => (k.flags.2.2.2 he).trans (h.flags.2.2.2 he)⟩
  control he := (k.control he).trans (h.control he)
  spsrs he := by
    obtain ⟨a1, a2, a3, a4, a5⟩ := h.spsrs he
    obtain ⟨b1, b2, b3, b4, b5⟩ := k.spsrs he
    exact ⟨b1.trans a1, b2.trans a2, b3.trans a3, b4.trans a4, b5.trans a5⟩
  memory :=
    ⟨fun a ha => (k.memory.1 a ha).trans (h.memory.1 a ha), k.memory.2.1.trans h.memory.2.1,
      fun h4 h5 => (k.memory.2.2 h4 h5).trans (h.memory.2.2 h4 h5)⟩
  inputs := ⟨k.inputs.1.trans h.inputs.1, k.inputs.2.1.trans h.inputs.2.1, k.inputs.2.2.trans h.inputs.2.2⟩

/-- An update of the pc and the cycle clock alone. -/
theorem same {e : Effects} {s t : State} (hr : t.regs = s.regs) (hc : t.cpsr = s.cpsr)
    (h1 : t.spsrFiq = s.spsrFiq) (h2 : t.spsrIrq = s.spsrIrq) (h3 : t.spsrSvc = s.spsrSvc)
    (h4 : t.spsrAbt = s.spsrAbt) (h5 : t.spsrUnd = s.spsrUnd) (hm : t.mem = s.mem) (hw : t.waitcnt = s.waitcnt)
    (hi : InputsKept s t) : Framed e s t where
  regs r hp _ := State.readPhys_congr hr hp
  flags := by
    obtain ⟨a, b, c, d⟩ := flags_congr hc
    exact ⟨fun _ => a, fun _ => b, fun _ => c, fun _ => d⟩
  control _ := by rw [hc]
  spsrs _ := ⟨h1, h2, h3, h4, h5⟩
  memory := ⟨fun a _ => by rw [hm], by rw [hm], fun _ _ => hw⟩
  inputs := hi

theorem writePc (e : Effects) (s : State) (v : Word) : Framed e s (s.writePc v) := by apply same <;> simp [InputsKept]
theorem advance (e : Effects) (s : State) : Framed e s s.advance := by apply same <;> simp [InputsKept]
theorem charge (e : Effects) (s : State) (a : Word) (w : Width) (k : AccessClass) : Framed e s (s.charge a w k) := by
  apply same <;> simp [InputsKept]
theorem chargeCode (e : Effects) (s : State) (k : AccessClass) : Framed e s (s.chargeCode k) := by
  apply same <;> simp [InputsKept]
theorem internal (e : Effects) (s : State) (k : Word) : Framed e s (s.internal k) := by apply same <;> simp [InputsKept]
theorem finish (e : Effects) (s : State) (b : Bool) : Framed e s (s.finish b) := by apply same <;> simp [InputsKept]
theorem chargeCondFail (e : Effects) (s : State) : Framed e s s.chargeCondFail := by apply same <;> simp [InputsKept]
theorem chargeWords (e : Effects) (n : Nat) (a : Word) (k : AccessClass) (s : State) :
    Framed e s (State.chargeWords n a k s) := by apply same <;> simp [InputsKept]

/-- A write of a register the effects name, or of the pc (R55, R66). -/
theorem writePhys {e : Effects} (s : State) {r : PhysReg} (v : Word) (h : r = .pc ∨ r ∈ e.regs) :
    Framed e s (s.writePhys r v) where
  regs q hq hn := State.readPhys_writePhys_ne s v hq fun h' => by
    rcases h with h | h
    · exact hq (h' ▸ h)
    · exact hn (h' ▸ h)
  flags := by
    obtain ⟨a, b, c, d⟩ := flags_congr (s := s) (t := s.writePhys r v) (by simp)
    exact ⟨fun _ => a, fun _ => b, fun _ => c, fun _ => d⟩
  control _ := by simp
  spsrs _ := by simp
  memory := by simp [MemoryKept]
  inputs := by simp [InputsKept]

theorem writeReg {e : Effects} (s : State) {n : Reg} (v : Word) (h : n = 15 ∨ phys n s.mode ∈ e.regs) :
    Framed e s (s.writeReg n v) := by
  unfold State.writeReg State.writeBank
  exact writePhys s v (h.imp (fun h => by simp [h]) id)

/-- A write of flags the effects name. -/
theorem writeFlags {e : Effects} (s : State) (n z c v : Bool) (hn : e.flags.getLsbD 3 = false → n = s.flagN)
    (hz : e.flags.getLsbD 2 = false → z = s.flagZ) (hc : e.flags.getLsbD 1 = false → c = s.flagC)
    (hv : e.flags.getLsbD 0 = false → v = s.flagV) : Framed e s (s.writeFlags n z c v) where
  regs q hq _ := State.readPhys_congr (by simp) hq
  flags := by simpa [FlagsKept] using ⟨hn, hz, hc, hv⟩
  control _ := by simp
  spsrs _ := by simp
  memory := by simp [MemoryKept]
  inputs := by simp [InputsKept]

/-- A write of the CPSR by effects that name all of it. -/
theorem writeCpsr {e : Effects} (s : State) (p : Word) (hf : e.flags = 0b1111#4) (hc : e.control = true) :
    Framed e s (s.writeCpsr p) where
  regs q hq _ := State.readPhys_congr (by simp) hq
  flags := by simp [FlagsKept, hf]
  control h := by simp [hc] at h
  spsrs _ := by simp
  memory := by simp [MemoryKept]
  inputs := by simp [InputsKept]

theorem writeThumb {e : Effects} (s : State) (b : Bool) (hc : e.control = true) : Framed e s (s.writeThumb b) where
  regs q hq _ := State.readPhys_congr (by simp) hq
  flags := by simp [FlagsKept, State.flagN, State.flagZ, State.flagC, State.flagV]
  control h := by simp [hc] at h
  spsrs _ := by simp
  memory := by simp [MemoryKept]
  inputs := by simp [InputsKept]

theorem writeSpsrOf {e : Effects} (s : State) (m : Mode) (v : Word) (h : e.spsr = true) : Framed e s (s.writeSpsrOf m v) where
  regs q hq _ := State.readPhys_congr (by simp) hq
  flags := by
    obtain ⟨a, b, c, d⟩ := flags_congr (s := s) (t := s.writeSpsrOf m v) (by simp)
    exact ⟨fun _ => a, fun _ => b, fun _ => c, fun _ => d⟩
  control _ := by simp
  spsrs h' := by simp [h] at h'
  memory := by simp [MemoryKept]
  inputs := by simp [InputsKept]

theorem returnFromException {e : Effects} (s : State) (p v : Word) (hf : e.flags = 0b1111#4) (hc : e.control = true) :
    Framed e s (s.returnFromException p v) :=
  (writeCpsr s p hf hc).trans (writePc e _ v)

/-- An update of memory and the wait-state register alone. -/
theorem memory_only {e : Effects} {s t : State} (hr : t.regs = s.regs) (hc : t.cpsr = s.cpsr)
    (h1 : t.spsrFiq = s.spsrFiq) (h2 : t.spsrIrq = s.spsrIrq) (h3 : t.spsrSvc = s.spsrSvc)
    (h4 : t.spsrAbt = s.spsrAbt) (h5 : t.spsrUnd = s.spsrUnd) (hm : MemoryKept e s t) (hi : InputsKept s t) :
    Framed e s t where
  regs r hp _ := State.readPhys_congr hr hp
  flags := by
    obtain ⟨a, b, c, d⟩ := flags_congr hc
    exact ⟨fun _ => a, fun _ => b, fun _ => c, fun _ => d⟩
  control _ := by rw [hc]
  spsrs _ := ⟨h1, h2, h3, h4, h5⟩
  memory := hm
  inputs := hi

theorem covers_false {x : Span} {a : Word} (h : x.covers a = false) : ¬ (a - x.start).toNat < x.bytes := by
  simpa [Span.covers] using h

/-- A store whose bytes the effects name (R323, R324, R332). -/
theorem storeAt {e : Effects} (k : StoreKind) (a v : Word) (s : State) (h : storeSpan k a ∈ e.stores) :
    Framed e s (storeAt k a v s) := by
  cases k with
  | word =>
    apply memory_only <;> simp only [Sys2Proof.Machine.storeAt, State.memWrite32_regs, State.memWrite32_cpsr,
      State.memWrite32_spsrFiq, State.memWrite32_spsrIrq, State.memWrite32_spsrSvc, State.memWrite32_spsrAbt,
      State.memWrite32_spsrUnd, InputsKept, State.memWrite32_config, State.memWrite32_env, State.memWrite32_cyclesOut,
      and_self]
    refine ⟨fun b hb => ?_, by simp [State.memWrite32_mem], fun h4 h5 => ?_⟩
    · rw [State.byte_memWrite32, if_neg]
      exact fun hc => covers_false (hb _ h) hc.1
    · have g4 := covers_false (h4 _ h)
      have g5 := covers_false (h5 _ h)
      simp only [storeSpan, StoreKind.width, alignTo, StoreKind.bytes] at g4 g5
      exact waitcnt_memWrite32 _ _ _ g4 g5
  | half =>
    apply memory_only <;> simp only [Sys2Proof.Machine.storeAt, State.memWrite16_regs, State.memWrite16_cpsr,
      State.memWrite16_spsrFiq, State.memWrite16_spsrIrq, State.memWrite16_spsrSvc, State.memWrite16_spsrAbt,
      State.memWrite16_spsrUnd, InputsKept, State.memWrite16_config, State.memWrite16_env, State.memWrite16_cyclesOut,
      and_self]
    refine ⟨fun b hb => ?_, by simp [State.memWrite16_mem], fun h4 h5 => ?_⟩
    · rw [State.byte_memWrite16, if_neg]
      exact fun hc => covers_false (hb _ h) hc.1
    · have g4 := covers_false (h4 _ h)
      have g5 := covers_false (h5 _ h)
      simp only [storeSpan, StoreKind.width, alignTo, StoreKind.bytes] at g4 g5
      exact waitcnt_memWrite16 _ _ _ g4 g5
  | byte =>
    apply memory_only <;> simp only [Sys2Proof.Machine.storeAt, State.memWrite8_regs, State.memWrite8_cpsr,
      State.memWrite8_spsrFiq, State.memWrite8_spsrIrq, State.memWrite8_spsrSvc, State.memWrite8_spsrAbt,
      State.memWrite8_spsrUnd, InputsKept, State.memWrite8_config, State.memWrite8_env, State.memWrite8_cyclesOut,
      and_self]
    have ne : ∀ b, e.spares b → a ≠ b := by
      rintro b hb rfl
      have := covers_false (hb _ h)
      simp [storeSpan, StoreKind.width, StoreKind.bytes, alignTo] at this
    refine ⟨fun b hb => ?_, by simp, fun h4 h5 => ?_⟩
    · rw [State.byte_memWrite8, if_neg]
      exact fun hc => ne b hb hc.1
    · show State.waitcntAfter s.waitcnt a _ = s.waitcnt
      unfold State.waitcntAfter
      rw [if_neg (ne _ h4), if_neg (ne _ h5)]

/-- The stores of a block (R344). -/
theorem storeRegs {e : Effects} (val : Reg → Word) (a : Word) (k : AccessClass) (l : List Reg) (t : State)
    (h : ∀ x ∈ wordSpans a l.length, x ∈ e.stores) : Framed e t (storeRegs val a k l t) := by
  obtain ⟨h1, -, h3, h4, h5, h6, h7, h8, h9, h10, h11, h12⟩ := storeRegs_fields val a k l t
  have hs : ∀ b, e.spares b → ∀ j < l.length, ¬ (b - alignWord (a + BitVec.ofNat 32 (4 * j))).toNat < 4 := by
    intro b hb j hj
    have := hb _ (h { start := alignWord (a + BitVec.ofNat 32 (4 * j)), bytes := 4 }
      (List.mem_map.mpr ⟨j, List.mem_range.mpr hj, rfl⟩))
    exact covers_false this
  exact memory_only h1 h3 h4 h5 h6 h7 h8
    ⟨fun b hb => storeRegs_kept val a k l t b (hs b hb), h12,
      fun h4 h5 => storeRegs_waitcnt val a k l t (hs _ h4) (hs _ h5)⟩ ⟨h9, h10, h11⟩

/-- The loads of a block (R342). -/
theorem loadRegs {e : Effects} (m : Mode) (a : Word) (l : List Reg) (t : State) (h : ∀ r ∈ l, phys r m ∈ e.regs) :
    Framed e t (loadRegs m a l t) where
  regs q hq hn := loadRegs_kept m a l t hq fun hc => by
    obtain ⟨r, hr, rfl⟩ := List.mem_map.mp hc
    exact hn (h r hr)
  flags := by
    obtain ⟨a, b, c, d⟩ := flags_congr (loadRegs_fields m a l t).1
    exact ⟨fun _ => a, fun _ => b, fun _ => c, fun _ => d⟩
  control _ := by rw [(loadRegs_fields m a l t).1]
  spsrs _ := by
    obtain ⟨-, -, -, h4, h5, h6, h7, h8, -⟩ := loadRegs_fields m a l t
    exact ⟨h4, h5, h6, h7, h8⟩
  memory := by
    obtain ⟨-, h2, h3, -⟩ := loadRegs_fields m a l t
    exact ⟨fun _ _ => by rw [h2], by rw [h2], fun _ _ => h3⟩
  inputs := by
    obtain ⟨-, -, -, -, -, -, -, -, h9, h10, h11, -⟩ := loadRegs_fields m a l t
    exact ⟨h9, h10, h11⟩

/-- A write-back keeps the mode. -/
theorem writeBase_mode (s : State) (wb : Option (Reg × Word)) : (Machine.writeBase wb s).mode = s.mode := by
  cases wb with
  | none => rfl
  | some p => exact State.mode_congr (by simp [Machine.writeBase])

/-- A write-back of a base the effects name (R248). -/
theorem writeBase {e : Effects} (s : State) (wb : Option (Reg × Word))
    (h : ∀ n x, wb = some (n, x) → n = 15 ∨ phys n s.mode ∈ e.regs) : Framed e s (writeBase wb s) := by
  cases wb with
  | none => exact refl e s
  | some p => exact writeReg s p.2 (h p.1 p.2 rfl)

/-- The register writes of a load, of registers the effects name (R248, R249). -/
theorem writeLoaded {e : Effects} (s : State) (wb : Option (Reg × Word)) (rd : Reg) (v : Word)
    (hr : rd = 15 ∨ phys rd s.mode ∈ e.regs) (h : ∀ n x, wb = some (n, x) → n = 15 ∨ phys n s.mode ∈ e.regs) :
    Framed e s (writeLoaded wb rd v s) := by
  unfold Machine.writeLoaded
  split
  · exact writeBase s wb h
  · refine (writeBase s wb h).trans (writeReg _ v ?_)
    rwa [writeBase_mode]

end Framed

/-! ## The shared bodies -/

/-- A conditional instruction keeps what its body keeps (R221). -/
theorem conditional_framed {e : Effects} {c : Cond} {s t : State} {body : Result} (h : conditional c s body = .next t)
    (hb : ∀ t, body = .next t → Framed e s t) : Framed e s t := by
  rcases conditional_next h with ⟨-, h⟩ | ⟨-, rfl⟩
  · exact hb t h
  · exact (Framed.chargeCondFail e s).trans (Framed.advance e _)

/-- A flag a data-processing operation does not name stays: V under a logical one (R263). -/
theorem alu_overflow_logical {op : AluOp} (a : Word) (o : Shifted) (c v : Bool)
    (h : op = .and ∨ op = .eor ∨ op = .tst ∨ op = .teq ∨ op = .orr ∨ op = .mov ∨ op = .bic ∨ op = .mvn) :
    (alu op a o c v).overflow = v ∧ (alu op a o c v).carry = o.carry := by
  rcases h with rfl | rfl | rfl | rfl | rfl | rfl | rfl | rfl <;> exact ⟨rfl, rfl⟩

/-- What data processing can answer (R261, R265, R266). -/
theorem dataProcess_next {op : AluOp} {sf : Bool} {rd : Reg} {a : Word} {o : Shifted} {x : Word} {s t : State}
    (h : dataProcess op sf rd a o x s = .next t) :
    (isTest op = true ∧
      t = (((s.chargeCode .S).internal x).setAluFlags (alu op a o s.flagC s.flagV)).finish false) ∨
    (isTest op = false ∧ rd = 15 ∧ sf = true ∧ ∃ p m, s.spsr = some p ∧ Mode.ofBits? (psrM p) = some m ∧
      t = (((s.chargeCode .S).internal x).returnFromException p (alu op a o s.flagC s.flagV).res).finish true) ∨
    (isTest op = false ∧ rd ≠ 15 ∧ sf = true ∧
      t = ((((s.chargeCode .S).internal x).writeReg rd (alu op a o s.flagC s.flagV).res).setAluFlags
        (alu op a o s.flagC s.flagV)).finish false) ∨
    (isTest op = false ∧ sf = false ∧
      t = (((s.chargeCode .S).internal x).writeReg rd (alu op a o s.flagC s.flagV).res).finish (rd = 15)) := by
  unfold dataProcess at h
  by_cases ht : isTest op = true
  · simp only [ht, if_true] at h
    exact .inl ⟨ht, by simpa using h.symm⟩
  · simp only [ht, if_false, Bool.false_eq_true] at h
    rw [Bool.not_eq_true] at ht
    by_cases hr : rd = 15 ∧ sf = true
    · rw [if_pos hr, withReturnPsr_next] at h
      obtain ⟨p, m, h1, h2, h3⟩ := h
      exact .inr (.inl ⟨ht, hr.1, hr.2, p, m, h1, h2, by simpa using h3.symm⟩)
    · rw [if_neg hr] at h
      by_cases hs : sf = true
      · simp only [hs, if_true] at h
        exact .inr (.inr (.inl ⟨ht, fun hc => hr ⟨hc, hs⟩, hs, by simpa using h.symm⟩))
      · simp only [hs] at h
        exact .inr (.inr (.inr ⟨ht, by simpa using hs, by simpa using h.symm⟩))

/-- The frame of data processing, in any effects that name its register and its flags (R261 to R267). -/
theorem dataProcess_framed {e : Effects} {op : AluOp} {sf : Bool} {rd : Reg} {a : Word} {o : Shifted} {x : Word} {s t : State}
    (h : dataProcess op sf rd a o x s = .next t) (hr : isTest op = true ∨ rd = 15 ∨ phys rd s.mode ∈ e.regs)
    (hret : isTest op = false → rd = 15 → sf = true → e.flags = 0b1111#4 ∧ e.control = true)
    (hf : isTest op = true ∨ sf = true → e.flags.getLsbD 3 = true ∧ e.flags.getLsbD 2 = true ∧
      (e.flags.getLsbD 1 = false → (alu op a o s.flagC s.flagV).carry = s.flagC) ∧
      (e.flags.getLsbD 0 = false → (alu op a o s.flagC s.flagV).overflow = s.flagV)) : Framed e s t := by
  have h0 : Framed e s ((s.chargeCode .S).internal x) := (Framed.chargeCode e s .S).trans (Framed.internal e _ x)
  rcases dataProcess_next h with ⟨ht, rfl⟩ | ⟨ht, hrd, hs, p, m, -, -, rfl⟩ | ⟨ht, hrd, hs, rfl⟩ | ⟨ht, hs, rfl⟩
  · obtain ⟨a1, a2, a3, a4⟩ := hf (.inl ht)
    exact (h0.trans (Framed.writeFlags _ _ _ _ _ (fun h => by rw [a1] at h; cases h) (fun h => by rw [a2] at h; cases h) a3 a4)).trans
      (Framed.finish e _ _)
  · obtain ⟨hf1, hc1⟩ := hret ht hrd hs
    exact (h0.trans (Framed.returnFromException _ _ _ hf1 hc1)).trans (Framed.finish e _ _)
  · obtain ⟨a1, a2, a3, a4⟩ := hf (.inr hs)
    have hw : rd = 15 ∨ phys rd s.mode ∈ e.regs := by
      rcases hr with hr | hr | hr
      · rw [ht] at hr; exact absurd hr (by simp)
      · exact .inl hr
      · exact .inr hr
    refine ((h0.trans (Framed.writeReg _ _ hw)).trans (Framed.writeFlags _ _ _ _ _ ?_ ?_ ?_ ?_)).trans (Framed.finish e _ _)
    · exact fun h => by rw [a1] at h; cases h
    · exact fun h => by rw [a2] at h; cases h
    · simpa [State.flagC] using a3
    · simpa [State.flagV] using a4
  · have hw : rd = 15 ∨ phys rd s.mode ∈ e.regs := by
      rcases hr with hr | hr | hr
      · rw [ht] at hr; exact absurd hr (by simp)
      · exact .inl hr
      · exact .inr hr
    exact (h0.trans (Framed.writeReg _ _ hw)).trans (Framed.finish e _ _)

/-- The frame of a data-processing instruction of the ARM set, whatever its operands. -/
theorem dataProcess_framed_arm {op : AluOp} {sf : Bool} {rd : Reg} {a : Word} {o : Shifted} {x : Word} {s t : State}
    (h : dataProcess op sf rd a o x s = .next t) (hsf : isTest op = true → sf = true) :
    Framed (dpEffects op sf rd s) s t := by
  refine dataProcess_framed h ?_ ?_ ?_
  · cases op <;> simp [isTest, dpEffects, regEffects] <;> (split <;> simp)
  · intro ht hrd hs
    subst hrd hs
    simp [dpEffects, ht]
  · intro hs
    have hs1 : sf = true := hs.elim hsf id
    subst hs1
    have hl := alu_overflow_logical (op := op) a o s.flagC s.flagV
    cases op <;> by_cases h15 : rd = 15 <;> simp_all [dpEffects, isTest]

/-- The frame of a load (R320). -/
theorem loadFrom_framed {e : Effects} {k : LoadKind} {rd : Reg} {addr : Word} {wb : Option (Reg × Word)} {s t : State}
    (h : loadFrom k rd addr wb s = .next t) (hr : rd = 15 ∨ phys rd s.mode ∈ e.regs)
    (hw : ∀ n x, wb = some (n, x) → n = 15 ∨ phys n s.mode ∈ e.regs) : Framed e s t := by
  unfold loadFrom at h
  obtain rfl := Host.Outcome.next.inj h
  have hm : (((s.chargeCode .S).charge addr k.width .N).internal 1).mode = s.mode := State.mode_congr (by simp)
  exact ((((Framed.chargeCode e s .S).trans (Framed.charge e _ _ _ _)).trans (Framed.internal e _ _)).trans
    (Framed.writeLoaded _ wb rd _ (by rwa [hm]) (by rwa [hm]))).trans (Framed.finish e _ _)

/-- The frame of a store (R320). -/
theorem storeTo_framed {e : Effects} {k : StoreKind} {addr v : Word} {wb : Option (Reg × Word)} {s t : State}
    (h : storeTo k addr v wb s = .next t) (hs : storeSpan k addr ∈ e.stores)
    (hw : ∀ n x, wb = some (n, x) → n = 15 ∨ phys n s.mode ∈ e.regs) : Framed e s t := by
  unfold storeTo at h
  rw [checkedPrefetch_next] at h
  obtain ⟨-, h⟩ := h
  obtain rfl := Host.Outcome.next.inj h
  refine ((((Framed.chargeCode e s .N).trans (Framed.charge e _ _ _ _)).trans (Framed.storeAt k _ _ _ hs)).trans
    (Framed.writeBase _ wb ?_)).trans (Framed.finish e _ _)
  intro n x hx
  have := hw n x hx
  rwa [show State.mode _ = s.mode from State.mode_congr (by cases k <;> simp [storeAt])]

end Sys2Proof.Machine
end

