-- ==== Sys2Proof/Laws/FrameFamilies.lean ====
section
/-! SUPPORT. The frames of the remaining shared bodies: loads and stores by base, block transfers, swaps, multiplies, PSR transfers,
branches and exception entry. -/

namespace Sys2Proof.Machine

theorem loadSingle_framed {e : Effects} {k : LoadKind} {p u w : Bool} {rn rd : Reg} {off : Word} {s t : State}
    (h : loadSingle k p u w rn rd off s = .next t) (hd : phys rd s.mode ∈ e.regs)
    (hn : writesBack p w = true → phys rn s.mode ∈ e.regs) : Framed e s t := by
  unfold loadSingle at h
  rw [checked_next] at h
  refine loadFrom_framed h.2 (.inr hd) ?_
  intro n x hx
  split at hx
  · rename_i hw
    obtain ⟨rfl, -⟩ := by simpa using hx
    exact .inr (hn (by simp_all))
  · simp at hx

theorem storeSingle_framed {e : Effects} {k : StoreKind} {p u w : Bool} {rn rd : Reg} {off : Word} {s t : State}
    (h : storeSingle k p u w rn rd off s = .next t)
    (hs : storeSpan k (accessAddr p u (s.readReg rn) off) ∈ e.stores)
    (hn : writesBack p w = true → phys rn s.mode ∈ e.regs) : Framed e s t := by
  unfold storeSingle at h
  rw [checked_next] at h
  refine storeTo_framed h.2 hs ?_
  intro n x hx
  split at hx
  · rename_i hw
    obtain ⟨rfl, -⟩ := by simpa using hx
    exact .inr (hn hw)
  · simp at hx

/-- A block transfer that goes on passed its checks; a return found its SPSR (R346, R349, R352). -/
theorem checkedBlock_next {list : BitVec 16} {isReturn ub w notFirst : Bool} {rn : Reg} {s t : State} {k : Word → Result}
    (h : checkedBlock list isReturn ub w notFirst rn s k = .next t) :
    ∃ p, k p = .next t ∧ (isReturn = true → s.spsr = some p ∧ ∃ m, Mode.ofBits? (psrM p) = some m) := by
  unfold checkedBlock at h
  split at h
  · cases h
  · rw [checked_next, checked_next] at h
    cases hr : isReturn with
    | false =>
      rw [hr] at h
      simp only [Bool.false_eq_true, if_false, checked_next] at h
      exact ⟨0, h.2.2.2, by simp⟩
    | true =>
      rw [hr] at h
      simp only [if_true, withReturnPsr_next] at h
      obtain ⟨-, -, p, m, h1, h2, h3⟩ := h
      rw [checked_next] at h3
      exact ⟨p, h3.2, fun _ => ⟨h1, m, h2⟩⟩

/-- The frame of LDM (R342). -/
theorem blockLoad_framed {p u ub w : Bool} {rn : Reg} {list : BitVec 16} {s t : State}
    (h : blockLoad p u ub w rn list s = .next t) : Framed (ldmEffects ub w rn list s) s t := by
  unfold blockLoad at h
  obtain ⟨q, h, -⟩ := checkedBlock_next h
  obtain rfl := Host.Outcome.next.inj h
  set e := ldmEffects ub w rn list s with he
  refine Framed.trans ?_ (Framed.finish e _ _)
  have h0 : Framed e s ((State.chargeWords (regsOf (effectiveList list)).length
      (blockStart p u (s.readReg rn) (effectiveCount list)) .N (s.chargeCode .S)).internal 1) :=
    ((Framed.chargeCode e s .S).trans (Framed.chargeWords e _ _ _ _)).trans (Framed.internal e _ _)
  have h1 := h0.trans (Framed.writeBase (e := e) _ (if (w && !(effectiveList list).getLsbD rn.val) = true then
      some (rn, blockWriteback u (s.readReg rn) (effectiveCount list)) else none) (by
    intro n x hx
    split at hx
    · rename_i hw
      obtain ⟨rfl, -⟩ := by simpa using hx
      have hw1 : w = true := by simp_all
      refine .inr ?_
      rw [show State.mode _ = s.mode from State.mode_congr (by simp)]
      simp [he, ldmEffects, hw1]
    · simp at hx))
  have h2 := h1.trans (Framed.loadRegs (e := e) (if (ub && !(effectiveList list).getLsbD 15) = true then Mode.usr else s.mode)
    (blockStart p u (s.readReg rn) (effectiveCount list)) ((regsOf (effectiveList list)).filter fun r => r != 15) _ (by
    intro r hr
    simp only [he, ldmEffects]
    exact List.mem_append_left _ (List.mem_map.mpr ⟨r, (List.mem_filter.mp hr).1, rfl⟩)))
  by_cases hp : (effectiveList list).getLsbD 15 = true
  · by_cases hu : ub = true
    · subst hu
      simp only [hp, Bool.not_true, Bool.false_eq_true, if_false, if_true]
      simp only [hp, Bool.not_true, Bool.and_false, Bool.false_eq_true, if_false] at h2
      exact h2.trans (Framed.returnFromException _ _ _ (by simp [he, ldmEffects, hp]) (by simp [he, ldmEffects, hp]))
    · rw [Bool.not_eq_true] at hu
      subst hu
      simp only [hp, Bool.not_true, Bool.false_eq_true, if_false]
      simp only [hp, Bool.not_true, Bool.and_false, Bool.false_eq_true, if_false] at h2
      exact h2.trans (Framed.writePc e _ _)
  · rw [Bool.not_eq_true] at hp
    simp only [hp, Bool.not_false, if_true]
    simpa only [hp, Bool.not_false] using h2

/-- The frame of STM (R344). -/
theorem blockStore_framed {p u ub w : Bool} {rn : Reg} {list : BitVec 16} {s t : State}
    (h : blockStore p u ub w rn list s = .next t) : Framed (stmEffects p u w rn list s) s t := by
  unfold blockStore at h
  obtain ⟨q, h, -⟩ := checkedBlock_next h
  rw [checkedPrefetch_next] at h
  obtain rfl := Host.Outcome.next.inj h.2
  set e := stmEffects p u w rn list s with he
  refine Framed.trans ((Framed.chargeCode e s .N).trans ((Framed.storeRegs (e := e) _ _ _ _ _ ?_).trans
    (Framed.writeBase (e := e) _ _ ?_))) (Framed.finish e _ _)
  · intro x hx
    simpa [he, stmEffects] using hx
  · intro n x hx
    split at hx
    · rename_i hw
      obtain ⟨rfl, -⟩ := by simpa using hx
      refine .inr ?_
      rw [show State.mode _ = s.mode from State.mode_congr (by
        rw [(storeRegs_fields _ _ _ _ _).2.2.1]; simp)]
      simp [he, stmEffects, hw]
    · simp at hx

/-- The frame of a swap (R360). -/
theorem swap_framed {e : Effects} {lk : LoadKind} {sk : StoreKind} {rn rd rm : Reg} {s t : State}
    (h : swap lk sk rn rd rm s = .next t) (hd : phys rd s.mode ∈ e.regs)
    (hs : storeSpan sk (s.readReg rn) ∈ e.stores) : Framed e s t := by
  unfold swap at h
  rw [checked_next, checkedPrefetch_next] at h
  obtain rfl := Host.Outcome.next.inj h.2.2
  refine ((((((Framed.chargeCode e s .S).trans (Framed.charge e _ _ _ _)).trans (Framed.charge e _ _ _ _)).trans
    (Framed.storeAt sk _ _ _ hs)).trans (Framed.internal e _ _)).trans (Framed.writeReg _ _ (.inr ?_))).trans
    (Framed.finish e _ _)
  rwa [show State.mode _ = s.mode from State.mode_congr (by cases sk <;> simp [storeAt])]

/-- The frame of a 32-bit multiply (R301). -/
theorem multiply_framed {e : Effects} {sf : Bool} {rd : Reg} {res m : Word} {s t : State}
    (h : multiply sf rd res m s = .next t) (hd : phys rd s.mode ∈ e.regs)
    (hf : sf = true → e.flags.getLsbD 3 = true ∧ e.flags.getLsbD 2 = true) : Framed e s t := by
  unfold multiply at h
  obtain rfl := Host.Outcome.next.inj h
  have h0 := ((Framed.chargeCode e s .S).trans (Framed.internal e _ m)).trans
    (Framed.writeReg (n := rd) _ res (.inr (by rwa [show State.mode _ = s.mode from State.mode_congr (by simp)])))
  cases sf with
  | false => exact h0.trans (Framed.finish e _ _)
  | true =>
    obtain ⟨h3, h2⟩ := hf rfl
    refine (h0.trans (Framed.writeFlags _ _ _ _ _ ?_ ?_ (fun _ => rfl) (fun _ => rfl))).trans (Framed.finish e _ _)
    · exact fun h => by rw [h3] at h; cases h
    · exact fun h => by rw [h2] at h; cases h

/-- The frame of a long multiply (R301). -/
theorem multiplyLong_framed {e : Effects} {sf : Bool} {rdHi rdLo : Reg} {res : BitVec 64} {m : Word} {s t : State}
    (h : multiplyLong sf rdHi rdLo res m s = .next t) (hl : phys rdLo s.mode ∈ e.regs) (hh : phys rdHi s.mode ∈ e.regs)
    (hf : sf = true → e.flags.getLsbD 3 = true ∧ e.flags.getLsbD 2 = true) : Framed e s t := by
  unfold multiplyLong at h
  obtain rfl := Host.Outcome.next.inj h
  have h0 := (((Framed.chargeCode e s .S).trans (Framed.internal e _ m)).trans
    (Framed.writeReg (n := rdLo) _ (res.extractLsb' 0 32)
      (.inr (by rwa [show State.mode _ = s.mode from State.mode_congr (by simp)])))).trans
    (Framed.writeReg (n := rdHi) _ (res.extractLsb' 32 32)
      (.inr (by rwa [show State.mode _ = s.mode from State.mode_congr (by simp)])))
  cases sf with
  | false => exact h0.trans (Framed.finish e _ _)
  | true =>
    obtain ⟨h3, h2⟩ := hf rfl
    refine (h0.trans (Framed.writeFlags _ _ _ _ _ ?_ ?_ (fun _ => rfl) (fun _ => rfl))).trans (Framed.finish e _ _)
    · exact fun h => by rw [h3] at h; cases h
    · exact fun h => by rw [h2] at h; cases h

theorem moveFromPsr_framed {e : Effects} {spsr : Bool} {rd : Reg} {s t : State} (h : moveFromPsr spsr rd s = .next t)
    (hd : phys rd s.mode ∈ e.regs) : Framed e s t := by
  unfold moveFromPsr at h
  split at h
  · cases h
  · rw [checked_next] at h
    obtain rfl := Host.Outcome.next.inj h.2
    exact ((Framed.chargeCode e s .S).trans (Framed.writeReg _ _
      (.inr (by rwa [show State.mode _ = s.mode from State.mode_congr (by simp)])))).trans (Framed.finish e _ _)

theorem branchTo_framed {e : Effects} {v : Word} {s t : State} (h : branchTo v s = .next t) : Framed e s t := by
  obtain rfl := Host.Outcome.next.inj h
  exact ((Framed.chargeCode e s .S).trans (Framed.writePc e _ v)).trans (Framed.finish e _ _)

theorem branchExchange_framed {e : Effects} {v : Word} {s t : State} (h : branchExchange v s = .next t)
    (hc : e.control = true) : Framed e s t := by
  obtain rfl := Host.Outcome.next.inj h
  exact (((Framed.chargeCode e s .S).trans (Framed.writeThumb _ _ hc)).trans (Framed.writePc e _ v)).trans (Framed.finish e _ _)

theorem writeAddress_framed {e : Effects} {rd : Reg} {v : Word} {s t : State} (h : writeAddress rd v s = .next t)
    (hd : phys rd s.mode ∈ e.regs) : Framed e s t := by
  obtain rfl := Host.Outcome.next.inj h
  exact ((Framed.chargeCode e s .S).trans (Framed.writeReg _ _
    (.inr (by rwa [show State.mode _ = s.mode from State.mode_congr (by simp)])))).trans (Framed.finish e _ _)

/-- The frame of an exception entry: R14 of the new mode, its SPSR, and the control byte; no flag (R610). -/
theorem takeException_framed {e : Effects} (s : State) (m : Mode) (vec lr : Word) (f : Bool) (hr : phys 14 m ∈ e.regs)
    (hc : e.control = true) (hs : e.spsr = true) : Framed e s (s.takeException m vec lr f) := by
  have h1 : Framed e s (s.writeCpsr (psrWithControl s.readCpsr true (f || psrF s.readCpsr) false m.bits)) :=
    { regs := fun q hq _ => State.readPhys_congr (by simp) hq
      flags := by simp [FlagsKept, State.flagN, State.flagZ, State.flagC, State.flagV, State.readCpsr]
      control := fun h => by simp [hc] at h
      spsrs := fun h => by simp [hs] at h
      memory := by simp [MemoryKept]
      inputs := by simp [InputsKept] }
  have h2 := (h1.trans (Framed.writeSpsrOf _ m s.readCpsr hs)).trans
    (Framed.writePhys (r := phys 14 m) _ lr (.inr hr))
  refine h2.trans ?_
  apply Framed.same <;> simp [State.takeException, State.writeBank, InputsKept]

theorem softwareInterrupt_framed {s t : State} (h : softwareInterrupt s = .next t) : Framed swiEffects s t := by
  obtain rfl := Host.Outcome.next.inj h
  exact ((Framed.chargeCode _ s .S).trans (takeException_framed _ .svc _ _ _ (by simp [swiEffects]) rfl rfl)).trans
    (Framed.finish _ _ _)

/-- The frame of MSR to the CPSR: the flags with `f`, the control byte with `c` (R286, R287). It needs the reserved bits to be 0, as the
invariant says. -/
theorem moveToCpsr_framed {e : Effects} {mask : PsrMask} {fromPc : Bool} {v : Word} {s t : State}
    (h : moveToCpsr mask fromPc v s = .next t)
    (hz : psrReserved s.cpsr = 0) (hf : mask.f = true → e.flags = 0b1111#4) (hc : mask.c = true → e.control = true) :
    Framed e s t := by
  unfold moveToCpsr at h
  simp only [checked_next] at h
  obtain ⟨-, h⟩ := h
  split at h
  · cases h
  · obtain rfl := Host.Outcome.next.inj h
    have hcpsr : s.readCpsr = s.cpsr := implemented_of_reserved hz
    refine ((Framed.chargeCode e s .S).trans ?_).trans (Framed.finish e _ _)
    refine
      { regs := fun q hq _ => State.readPhys_congr (by simp) hq
        flags := ?_
        control := ?_
        spsrs := fun _ => by simp
        memory := by simp [MemoryKept]
        inputs := by simp [InputsKept] }
    · by_cases hm : mask.f = true
      · simp [FlagsKept, hf hm]
      · rw [Bool.not_eq_true] at hm
        by_cases hm2 : (mask.c && s.mode.privileged) = true
        · simp [FlagsKept, State.flagN, State.flagZ, State.flagC, State.flagV, msrCpsr, hm, hm2, hcpsr]
        · simp [FlagsKept, State.flagN, State.flagZ, State.flagC, State.flagV, msrCpsr, hm, hm2, hcpsr]
    · intro h2
      have hm2 : mask.c = false := by
        cases hm : mask.c
        · rfl
        · rw [hc hm] at h2; cases h2
      have hi : ∀ x : Word, (x &&& psrImplemented).extractLsb' 0 28 = x.extractLsb' 0 28 &&& 0xFF#28 := by
        intro x; rw [BitVec.extractLsb'_and]; rfl
      have hl : s.cpsr.extractLsb' 0 28 &&& 0xFF#28 = s.cpsr.extractLsb' 0 28 := by
        rw [← hi, implemented_of_reserved hz]
      simp only [State.writeCpsr_cpsr, State.chargeCode_cpsr, hi, msrCpsr, hm2, Bool.false_and, Bool.false_eq_true, if_false,
        hcpsr]
      split
      · rw [low_withFlags, hl]
      · exact hl

theorem moveToSpsr_framed {e : Effects} {mask : PsrMask} {fromPc : Bool} {v : Word} {s t : State}
    (h : moveToSpsr mask fromPc v s = .next t)
    (hs : e.spsr = true) : Framed e s t := by
  unfold moveToSpsr at h
  split at h
  · cases h
  · obtain rfl := Host.Outcome.next.inj (checked_next.mp h).2
    exact ((Framed.chargeCode e s .S).trans (Framed.writeSpsrOf _ _ _ hs)).trans (Framed.finish e _ _)

end Sys2Proof.Machine
end

