-- ==== Sys2Proof/Laws/Cycles.lean ====
section
/-! SUPPORT. What each shared body charges to the cycle clock, in the terms of `charges` (70_reset_and_hazards.md section 4). -/

namespace Sys2Proof.Machine

/-- The cycle clock after a body that charges `c`, with the refill in the state it leaves (R730). -/
def Charged (c : Charges) (s t : State) : Prop := t.cycles = s.cycles + c.cycles + if c.refill then refillCost t else 0

/-- The end of an instruction adds the refill of the state it leaves, or nothing (R730). -/
theorem finish_cycles (s : State) (b : Bool) :
    (s.finish b).cycles = s.cycles + if b then refillCost (s.finish b) else 0 := by
  cases b
  · simp [State.finish]
  · exact BitVec.add_assoc _ _ _

/-- An instruction charges what its state before `finish` was charged. -/
theorem Charged.finish {s t : State} {c : Word} {b : Bool} (h : t.cycles = s.cycles + c) : Charged ⟨c, b⟩ s (t.finish b) := by
  rw [Charged, finish_cycles, h]

/-- A write-back charges nothing. -/
@[simp] theorem writeBase_cycles (wb : Option (Reg × Word)) (s : State) : (writeBase wb s).cycles = s.cycles := by
  cases wb with
  | none => rfl
  | some p => simp [writeBase]

/-- The register writes of a load charge nothing. -/
@[simp] theorem writeLoaded_cycles (wb : Option (Reg × Word)) (rd : Reg) (v : Word) (s : State) :
    (writeLoaded wb rd v s).cycles = s.cycles := by
  unfold writeLoaded; split <;> simp

/-- The memory write of a store charges nothing. -/
@[simp] theorem storeAt_cycles (k : StoreKind) (a v : Word) (s : State) : (storeAt k a v s).cycles = s.cycles := by
  cases k <;> simp [storeAt]

/-- `Code(k)` as the charge of a fetch (R730). -/
theorem chargeCode_cost (s : State) (k : AccessClass) : (s.chargeCode k).cycles = s.cycles + fetchCost s s.pc k := rfl

theorem fetch_cost (s : State) (k : AccessClass) :
    waitCost s.config (regionClass s.pc) s.codeWidth k s.waitcnt = fetchCost s s.pc k := rfl

/-- R731, R742. -/
theorem dataProcess_charged {op : AluOp} {sf : Bool} {rd : Reg} {a : Word} {o : Shifted} {x : Word} {s t : State}
    (h : dataProcess op sf rd a o x s = .next t) : Charged (codeCharges (!isTest op && rd = 15) x s) s t := by
  have h0 : ((s.chargeCode .S).internal x).cycles = s.cycles + (fetchCost s s.pc .S + x) := BitVec.add_assoc _ _ _
  rcases dataProcess_next h with ⟨ht, rfl⟩ | ⟨ht, rfl, hs, p, m, -, -, rfl⟩ | ⟨ht, hr, hs, rfl⟩ | ⟨ht, hs, rfl⟩ <;>
    simp only [ht, codeCharges, Bool.not_true, Bool.not_false, Bool.true_and, Bool.false_and, decide_true]
  · exact Charged.finish h0
  · exact Charged.finish h0
  · rw [decide_eq_false hr]
    exact Charged.finish (by simpa [State.setAluFlags] using h0)
  · exact Charged.finish (by simpa using h0)

/-- R734. -/
theorem loadFrom_charged {k : LoadKind} {rd : Reg} {a : Word} {wb : Option (Reg × Word)} {s t : State}
    (h : loadFrom k rd a wb s = .next t) : Charged (loadAtCharges k a (rd = 15 || branchesBase wb) s) s t := by
  obtain rfl := Host.Outcome.next.inj h
  refine Charged.finish ?_
  simp only [writeLoaded_cycles, State.internal_cycles, State.charge_cycles, chargeCode_cost, State.chargeCode_config,
    State.chargeCode_waitcnt, dataCost, BitVec.add_assoc]

/-- R735. -/
theorem storeTo_charged {k : StoreKind} {a v : Word} {wb : Option (Reg × Word)} {s t : State}
    (h : storeTo k a v wb s = .next t) : Charged (storeAtCharges k a (branchesBase wb) s) s t := by
  obtain rfl := Host.Outcome.next.inj (checkedPrefetch_next.mp h).2
  refine Charged.finish ?_
  simp only [writeBase_cycles, storeAt_cycles, State.charge_cycles, chargeCode_cost, State.chargeCode_config,
    State.chargeCode_waitcnt, dataCost, BitVec.add_assoc]

/-- A conditional write-back branches when there is one and its base is R15 (R249). -/
theorem branchesBase_ite (c : Bool) (n : Reg) (x : Word) :
    branchesBase (if c then some (n, x) else none) = (c && decide (n = 15)) := by
  cases c <;> rfl

/-- R245, R248, R249, R734. -/
theorem loadSingle_charged {k : LoadKind} {p u w : Bool} {rn rd : Reg} {off : Word} {s t : State}
    (h : loadSingle k p u w rn rd off s = .next t) : Charged (loadCharges k p u w rn rd off s) s t := by
  have h1 := loadFrom_charged (checked_next.mp h).2
  rw [branchesBase_ite, show (writesBack p w && (rd != rn || decide (rn = 15)) && decide (rn = 15)) =
    ((!p || w) && decide (rn = 15)) by by_cases hr : rn = 15 <;> simp [writesBack, hr]] at h1
  exact h1

/-- R245, R248, R249, R735. -/
theorem storeSingle_charged {k : StoreKind} {p u w : Bool} {rn rd : Reg} {off : Word} {s t : State}
    (h : storeSingle k p u w rn rd off s = .next t) : Charged (storeCharges k p u w rn off s) s t := by
  have h1 := storeTo_charged (checked_next.mp h).2
  rw [branchesBase_ite] at h1
  exact h1

/-- R738. -/
theorem swap_charged {lk : LoadKind} {sk : StoreKind} {rn rd rm : Reg} {s t : State} (h : swap lk sk rn rd rm s = .next t)
    (hw : lk.width = sk.width) : Charged (swapCharges sk.width rn rd s) s t := by
  obtain rfl := Host.Outcome.next.inj (checkedPrefetch_next.mp (checked_next.mp h).2).2
  refine Charged.finish ?_
  simp only [State.writeReg_cycles, State.internal_cycles, storeAt_cycles, State.charge_cycles, chargeCode_cost, State.charge_config,
    State.charge_waitcnt, State.chargeCode_config, State.chargeCode_waitcnt, dataCost, hw, BitVec.add_assoc]

/-- R733. -/
theorem multiply_charged {sf : Bool} {rd : Reg} {res m : Word} {s t : State} (h : multiply sf rd res m s = .next t) :
    Charged (codeCharges (rd = 15) m s) s t := by
  obtain rfl := Host.Outcome.next.inj h
  refine Charged.finish ?_
  cases sf <;>
    simp only [if_true, Bool.false_eq_true, if_false, State.setNZ, State.writeFlags_cycles, State.writeReg_cycles,
      State.internal_cycles, chargeCode_cost, BitVec.add_assoc]

/-- R733. -/
theorem multiplyLong_charged {sf : Bool} {rdHi rdLo : Reg} {res : BitVec 64} {m : Word} {s t : State}
    (h : multiplyLong sf rdHi rdLo res m s = .next t) : Charged (codeCharges (rdLo = 15 || rdHi = 15) m s) s t := by
  obtain rfl := Host.Outcome.next.inj h
  refine Charged.finish ?_
  cases sf <;>
    simp only [if_true, Bool.false_eq_true, if_false, State.setNZ64, State.writeFlags_cycles, State.writeReg_cycles,
      State.internal_cycles, chargeCode_cost, BitVec.add_assoc]

/-- `m` of R732 in its two forms. -/
theorem multiplierCycles_steps (v : Word) : multiplierCycles v = multiplierSteps true v := by
  have e : ∀ (a n : Nat) (h : a + n = 32), (v.extractLsb' a n = 0 ∨ v.extractLsb' a n = BitVec.allOnes n) ↔
      (v.toNat < 2 ^ a ∨ 2 ^ 32 - 2 ^ a ≤ v.toNat) := by
    intro a n h
    have hv := v.isLt
    have hp : 2 ^ a * 2 ^ n = 2 ^ 32 := by rw [← Nat.pow_add, h]
    have hn : 0 < 2 ^ n := Nat.two_pow_pos n
    have ha : 0 < 2 ^ a := Nat.two_pow_pos a
    have hd : v.toNat / 2 ^ a < 2 ^ n := by
      rw [Nat.div_lt_iff_lt_mul ha, Nat.mul_comm, hp]; exact hv
    refine or_congr ?_ ?_
    · rw [← BitVec.toNat_inj, BitVec.extractLsb'_toNat, Nat.shiftRight_eq_div_pow, Nat.mod_eq_of_lt hd]
      simp [Nat.div_eq_zero_iff]
    · rw [← BitVec.toNat_inj, BitVec.extractLsb'_toNat, Nat.shiftRight_eq_div_pow, Nat.mod_eq_of_lt hd, BitVec.toNat_allOnes]
      have h1 := Nat.le_div_iff_mul_le (x := 2 ^ n - 1) (y := v.toNat) ha
      rw [Nat.sub_mul, Nat.mul_comm, hp, Nat.one_mul] at h1
      rw [← h1]
      omega
  have e1 := e 8 24 rfl
  have e2 := e 16 16 rfl
  have e3 := e 24 8 rfl
  simp only [multiplierCycles, multiplierSteps, Bool.true_and, Bool.or_eq_true, decide_eq_true_eq, e1, e2, e3]

/-- `m` of R732 for UMULL and UMLAL in its two forms. -/
theorem multiplierCyclesUnsigned_steps (v : Word) : multiplierCyclesUnsigned v = multiplierSteps false v := by
  have e : ∀ (a n : Nat) (h : a + n = 32), v.extractLsb' a n = 0 ↔ v.toNat < 2 ^ a := by
    intro a n h
    have ha : 0 < 2 ^ a := Nat.two_pow_pos a
    have hd : v.toNat / 2 ^ a < 2 ^ n := by
      rw [Nat.div_lt_iff_lt_mul ha, ← Nat.pow_add, Nat.add_comm, h]; exact v.isLt
    rw [← BitVec.toNat_inj, BitVec.extractLsb'_toNat, Nat.shiftRight_eq_div_pow, Nat.mod_eq_of_lt hd]
    simp [Nat.div_eq_zero_iff]
  have e1 := e 8 24 rfl
  have e2 := e 16 16 rfl
  have e3 := e 24 8 rfl
  simp only [multiplierCyclesUnsigned, multiplierSteps, Bool.false_and, Bool.or_false, decide_eq_true_eq, e1, e2, e3]

/-- R731. -/
theorem moveFromPsr_charged {spsr : Bool} {rd : Reg} {s t : State} (h : moveFromPsr spsr rd s = .next t) :
    Charged (codeCharges (rd = 15) 0 s) s t := by
  unfold moveFromPsr at h
  split at h
  · cases h
  · obtain rfl := Host.Outcome.next.inj (checked_next.mp h).2
    exact Charged.finish (by simp [fetch_cost])

/-- R731. -/
theorem moveToPsr_charged {spsr : Bool} {mask : PsrMask} {fromPc : Bool} {v : Word} {s t : State}
    (h : moveToPsr spsr mask fromPc v s = .next t) : Charged (codeCharges false 0 s) s t := by
  unfold moveToPsr at h
  split at h
  · unfold moveToSpsr at h
    split at h
    · cases h
    · obtain rfl := Host.Outcome.next.inj (checked_next.mp h).2
      exact Charged.finish (by simp [fetch_cost])
  · have h := (checked_next.mp h).2
    split at h
    · cases h
    · obtain rfl := Host.Outcome.next.inj h
      exact Charged.finish (by simp [fetch_cost])

/-- R739. -/
theorem branchTo_charged {v : Word} {s t : State} (h : branchTo v s = .next t) : Charged (codeCharges true 0 s) s t := by
  obtain rfl := Host.Outcome.next.inj h
  exact Charged.finish (by simp [fetch_cost])

/-- R740. -/
theorem branchExchange_charged {v : Word} {s t : State} (h : branchExchange v s = .next t) :
    Charged (codeCharges true 0 s) s t := by
  obtain rfl := Host.Outcome.next.inj h
  exact Charged.finish (by simp [fetch_cost])

/-- An exception entry charges nothing by itself. -/
@[simp] theorem takeException_cycles (s : State) (m : Mode) (vector lr : Word) (setF : Bool) :
    (s.takeException m vector lr setF).cycles = s.cycles := by simp [State.takeException]

/-- R741. -/
theorem softwareInterrupt_charged {s t : State} (h : softwareInterrupt s = .next t) : Charged (codeCharges true 0 s) s t := by
  obtain rfl := Host.Outcome.next.inj h
  exact Charged.finish (by simp [State.takeSwi, fetch_cost])

/-- R742. -/
theorem writeAddress_charged {rd : Reg} {v : Word} {s t : State} (h : writeAddress rd v s = .next t) :
    Charged (codeCharges false 0 s) s t := by
  obtain rfl := Host.Outcome.next.inj h
  exact Charged.finish (by simp [fetch_cost])

/-! ## Block transfers -/

/-- The registers and the count of a list, as R346 gives them, in the two spellings. -/
theorem blockRegs_eq (list : BitVec 16) : blockRegs list = (regsOf (effectiveList list), effectiveCount list) := by
  unfold blockRegs effectiveList effectiveCount
  split
  · decide
  · rfl

/-- The table of R340 in its two spellings. -/
theorem blockTable_eq (p u : Bool) (b : Word) (n : Nat) : blockTable p u b n = (blockStart p u b n, blockWriteback u b n) := by
  cases p <;> cases u <;> rfl

/-- The charges of word transfers (R341, R736). -/
theorem chargeWords_cycles (n : Nat) (a : Word) (k : AccessClass) (s : State) :
    (State.chargeWords n a k s).cycles =
      s.cycles + ((List.range n).map fun j => dataCost s (blockWord a j) .w32 (if j = 0 then k else .S)).sum := by
  induction n generalizing a k s with
  | zero => simp [State.chargeWords]
  | succ n ih =>
    rw [State.chargeWords, ih, List.range_succ_eq_map, List.map_cons, List.sum_cons, List.map_map, State.charge_cycles,
      BitVec.add_assoc]
    congr 1
    refine congrArg₂ (· + ·) ?_ (congrArg List.sum (List.map_congr_left fun j _ => ?_))
    · simp [dataCost, blockWord, alignWord]
    · simp only [Function.comp_apply, blockWord, offset_succ, ite_self, Nat.succ_ne_zero, if_false]
      rfl

/-- An aligned address is a multiple of 4. -/
theorem alignWord_mod (a : Word) : (alignWord a).toNat % 4 = 0 := by
  have h : alignWord a &&& 3#32 = 0#32 := by
    rw [alignWord, BitVec.and_assoc, show 0xFFFFFFFC#32 &&& 3#32 = 0#32 from rfl, BitVec.and_zero]
  have h2 := congrArg BitVec.toNat h
  rw [BitVec.toNat_and] at h2
  exact (Nat.and_two_pow_sub_one_eq_mod _ 2).symm.trans h2

/-- The wait-state register after a word write: the low halfword at its own address, without bits 13 and 15 (R83, R116). -/
theorem memWrite32_waitcnt (s : State) (a v : Word) :
    (s.memWrite32 a v).waitcnt = if alignWord a = 0x04000204#32 then v.extractLsb' 0 16 &&& 0x5FFF#16 else s.waitcnt := by
  split
  · rename_i h
    have e : ∀ w : Byte, (v.extractLsb' 8 8 &&& 0x5F#8) ++ (w ++ v.extractLsb' 0 8 : Half).extractLsb' 0 8 =
        v.extractLsb' 0 16 &&& 0x5FFF#16 := by
      intro w
      rw [show 0x5FFF#16 = 0x5F#8 ++ 0xFF#8 from rfl]
      apply BitVec.eq_of_getLsbD_eq
      intro i hi
      by_cases h8 : i < 8
      · have h1 : (0xFF#8).getLsbD i = true := by
          have : ∀ j < 8, (0xFF#8).getLsbD j = true := by decide
          exact this i h8
        simp only [BitVec.getLsbD_append, BitVec.getLsbD_and, BitVec.getLsbD_extractLsb', h8, h1, hi, if_true, decide_true, Bool.true_and,
          Bool.and_true, Nat.zero_add]
      · have h9 : i - 8 < 8 := by omega
        have h10 : 8 + (i - 8) = i := by omega
        simp only [BitVec.getLsbD_append, BitVec.getLsbD_and, BitVec.getLsbD_extractLsb', h8, h9, h10, hi, if_false, decide_true,
          Bool.true_and, Nat.zero_add]
    simp only [State.memWrite32, State.writeByte, h]
    exact e _
  · rename_i h
    have hm := alignWord_mod a
    refine waitcnt_memWrite32 s a v ?_ ?_ <;> exact fun hc => h (BitVec.eq_of_toNat_eq (by bv_omega))

/-- The words of an STM from an address up, as its charges name them (R737). -/
theorem storeRegs_cycles (val : Reg → Word) (a : Word) (k : AccessClass) (l : List Reg) (t : State) :
    (storeRegs val a k l t).cycles = t.cycles + storedWordsCost t.config val t.waitcnt a k l := by
  induction l generalizing a k t with
  | nil => exact (BitVec.add_zero _).symm
  | cons r rest ih =>
    rw [storeRegs, ih, State.memWrite32_cycles, State.charge_cycles, BitVec.add_assoc, memWrite32_waitcnt, alignWord_idem]
    rfl

/-- The cost of stored words looks at the values of the listed registers alone. -/
theorem storedWordsCost_congr {cfg : Config} {f g : Reg → Word} (wc : Half) (a : Word) (k : AccessClass) {l : List Reg}
    (h : ∀ r ∈ l, f r = g r) : storedWordsCost cfg f wc a k l = storedWordsCost cfg g wc a k l := by
  induction l generalizing wc a k with
  | nil => rfl
  | cons r rest ih =>
    simp only [storedWordsCost, h r List.mem_cons_self]
    rw [ih _ _ _ fun r' hr => h r' (List.mem_cons_of_mem _ hr)]

/-- A listed register is the lowest exactly when it is the head of the list (R345). -/
theorem notLowest_eq {list : BitVec 16} {n : Reg} (hn : n ∈ regsOf list) : notLowest list n = ((regsOf list).head? != some n) := by
  have hs := regsOf_sorted list
  unfold notLowest
  revert hn hs
  cases regsOf list with
  | nil => simp
  | cons r rest =>
    intro hn hs
    rw [List.pairwise_cons] at hs
    rcases List.mem_cons.mp hn with rfl | hr
    · have : ((n :: rest).any fun r => decide (r.val < n.val)) = false := by
        rw [List.any_eq_false]
        intro x hx
        rcases List.mem_cons.mp hx with rfl | hx
        · simp
        · have h1 : n.val < x.val := hs.1 x hx
          simp only [decide_eq_true_eq]; omega
      rw [this, List.head?_cons, bne_self_eq_false]
    · have h1 := hs.1 n hr
      have h2 : r ≠ n := Fin.ne_of_lt h1
      simp [h1, h2]

/-- The value STM stores for a listed register, in its two spellings (R344, R345, R348, R350). -/
theorem blockStoreValue_eq {p u ub w : Bool} {rn : Reg} {list : BitVec 16} {s : State} {r : Reg}
    (hr : r ∈ regsOf (effectiveList list)) :
    blockStoreValue ub w rn (effectiveList list) (blockWriteback u (s.readReg rn) (effectiveCount list)) s r =
      blockValue p u ub w rn list s r := by
  unfold blockStoreValue blockValue
  simp only [blockRegs_eq, blockTable_eq]
  refine if_congr ?_ rfl (if_congr Iff.rfl (by simp [State.storeValue, storedReg]) rfl)
  refine and_congr_right fun he => ?_
  subst he
  simp [baseNotFirst, notLowest_eq hr, mem_regsOf.mp hr]

/-- R737. -/
theorem blockStore_charged {p u ub w : Bool} {rn : Reg} {list : BitVec 16} {s t : State}
    (h : blockStore p u ub w rn list s = .next t) : Charged (stmCharges p u ub w rn list s) s t := by
  unfold blockStore at h
  obtain ⟨q, h, -⟩ := checkedBlock_next h
  obtain rfl := Host.Outcome.next.inj (checkedPrefetch_next.mp h).2
  have e : branchesBase (if w then some (rn, blockWriteback u (s.readReg rn) (effectiveCount list)) else none) = (w && decide (rn = 15)) :=
    branchesBase_ite _ _ _
  rw [e]
  refine Charged.finish ?_
  rw [writeBase_cycles, storeRegs_cycles, chargeCode_cost, BitVec.add_assoc]
  simp only [blockRegs_eq, blockTable_eq, State.chargeCode_config, State.chargeCode_waitcnt]
  rw [storedWordsCost_congr _ _ _ fun r hr => blockStoreValue_eq hr]

/-- R736. -/
theorem blockLoad_charged {p u ub w : Bool} {rn : Reg} {list : BitVec 16} {s t : State}
    (h : blockLoad p u ub w rn list s = .next t) : Charged (ldmCharges p u w rn list s) s t := by
  unfold blockLoad at h
  obtain ⟨q, h, -⟩ := checkedBlock_next h
  obtain rfl := Host.Outcome.next.inj h
  rw [branchesBase_ite]
  have hc : (blockRegs list).1.contains 15 = (effectiveList list).getLsbD 15 := by
    rw [Bool.eq_iff_iff, blockRegs_eq]; simpa using mem_regsOf (list := effectiveList list) (r := 15)
  have hb : ((effectiveList list).getLsbD 15 || (w && !(effectiveList list).getLsbD rn.val) && decide (rn = 15)) =
      ((blockRegs list).1.contains 15 || w && decide (rn = 15)) := by
    rw [hc]
    by_cases hr : rn = 15
    · rw [hr, show (15 : Reg).val = 15 from rfl]
      cases (effectiveList list).getLsbD 15 <;> simp
    · simp [hr]
  rw [hb]
  refine Charged.finish ?_
  have e : ∀ (b c : Bool) (v : Word) (x : State),
      (if !b then x else if c then x.returnFromException q v else x.writePc v).cycles = x.cycles := by
    intro b c v x; cases b <;> cases c <;> rfl
  rw [e, (loadRegs_fields _ _ _ _).2.2.2.2.2.2.2.2.2.2.2, writeBase_cycles, State.internal_cycles, chargeWords_cycles, chargeCode_cost,
    BitVec.add_assoc, BitVec.add_assoc]
  simp only [blockRegs_eq, blockTable_eq, BitVec.add_assoc]
  rfl

end Sys2Proof.Machine
end

