-- ==== Sys2Proof/Laws/Invariant.lean ====
section
/-! SUPPORT. Each shared operation keeps a state well formed. -/

namespace Sys2Proof.Machine

namespace State.WellFormed

/-- An update that keeps the memory, the status registers, the pc and the wait-state register. -/
theorem congr {s t : State} (h : s.WellFormed) (hm : t.mem.wf = true) (hc : t.cpsr = s.cpsr) (h1 : t.spsrFiq = s.spsrFiq)
    (h2 : t.spsrIrq = s.spsrIrq) (h3 : t.spsrSvc = s.spsrSvc) (h4 : t.spsrAbt = s.spsrAbt) (h5 : t.spsrUnd = s.spsrUnd)
    (hp : s.alignPc t.pc = t.pc) (hw : t.waitcnt &&& 0xA000#16 = 0) : t.WellFormed where
  mem := hm
  cpsr := by rw [hc]; exact h.cpsr
  mode := by rw [hc]; exact h.mode
  spsrFiq := by rw [h1]; exact h.spsrFiq
  spsrIrq := by rw [h2]; exact h.spsrIrq
  spsrSvc := by rw [h3]; exact h.spsrSvc
  spsrAbt := by rw [h4]; exact h.spsrAbt
  spsrUnd := by rw [h5]; exact h.spsrUnd
  pc := by rw [State.alignPc_congr hc]; exact hp
  waitcnt := hw

theorem align_add (s : State) {a : Word} (h : s.alignPc a = a) : s.alignPc (a + s.ilen) = a + s.ilen := by
  unfold State.alignPc State.ilen at *
  have e1 : (0xFFFFFFFE#32) = ~~~(1#32) := by decide
  have e3 : (0xFFFFFFFC#32) = ~~~(3#32) := by decide
  split at h
  · rename_i ht
    simp only [ht, if_true]
    have h1 : a &&& 1#32 = 0 := by rw [← h, BitVec.and_assoc]; simp
    have hn : a.toNat % 2 = 0 := by
      have := congrArg BitVec.toNat h1
      simpa [BitVec.toNat_and, Nat.and_one_is_mod] using this
    have h2 : (a + 2) &&& 1#32 = 0 := by
      apply BitVec.eq_of_toNat_eq
      rw [BitVec.toNat_and, BitVec.toNat_add]
      simp only [BitVec.ofNat_eq_ofNat, BitVec.toNat_ofNat, Nat.reducePow, Nat.reduceMod, Nat.and_one_is_mod]
      omega
    have := BitVec.and_or_distrib_left (x := a + 2) (y := ~~~(1#32)) (z := 1#32)
    rw [h2, show (~~~(1#32) ||| 1#32) = BitVec.allOnes 32 by decide, BitVec.and_allOnes] at this
    rw [e1]; simpa using this.symm
  · rename_i ht
    simp only [ht]
    have h1 : a &&& 3#32 = 0 := by rw [← h, BitVec.and_assoc]; simp
    have m3 : ∀ n : Nat, n &&& 3 = n % 4 := fun n => Nat.and_two_pow_sub_one_eq_mod n 2
    have hn : a.toNat % 4 = 0 := by
      have := congrArg BitVec.toNat h1
      simpa [BitVec.toNat_and, m3] using this
    have h2 : (a + 4) &&& 3#32 = 0 := by
      apply BitVec.eq_of_toNat_eq
      rw [BitVec.toNat_and, BitVec.toNat_add]
      simp only [BitVec.ofNat_eq_ofNat, BitVec.toNat_ofNat, Nat.reducePow, Nat.reduceMod, m3]
      omega
    have := BitVec.and_or_distrib_left (x := a + 4) (y := ~~~(3#32)) (z := 3#32)
    rw [h2, show (~~~(3#32) ||| 3#32) = BitVec.allOnes 32 by decide, BitVec.and_allOnes] at this
    rw [e3]; simpa using this.symm

theorem charge {s : State} (h : s.WellFormed) (a : Word) (w : Width) (k : AccessClass) : (s.charge a w k).WellFormed :=
  h.congr (by simpa using h.mem) (by simp) (by simp) (by simp) (by simp) (by simp) (by simp) (by simpa using h.pc)
    (by simpa using h.waitcnt)

theorem chargeCode {s : State} (h : s.WellFormed) (k : AccessClass) : (s.chargeCode k).WellFormed := h.charge _ _ k

theorem internal {s : State} (h : s.WellFormed) (k : Word) : (s.internal k).WellFormed :=
  h.congr (by simpa using h.mem) (by simp) (by simp) (by simp) (by simp) (by simp) (by simp) (by simpa using h.pc)
    (by simpa using h.waitcnt)

theorem drain {s : State} (h : s.WellFormed) : s.drain.WellFormed :=
  h.congr (by simpa using h.mem) (by simp) (by simp) (by simp) (by simp) (by simp) (by simp) (by simpa using h.pc)
    (by simpa using h.waitcnt)

theorem afterInput {s : State} (h : s.WellFormed) : s.afterInput.WellFormed :=
  h.congr (by simpa using collaboratorWrites_wf _ _ h.mem) (by simp) (by simp) (by simp) (by simp) (by simp) (by simp)
    (by simpa using h.pc) (by simpa using h.waitcnt)

theorem advance {s : State} (h : s.WellFormed) : s.advance.WellFormed :=
  h.congr (by simpa using h.mem) (by simp) (by simp) (by simp) (by simp) (by simp) (by simp)
    (by simpa using align_add s h.pc) (by simpa using h.waitcnt)

theorem finish {s : State} (h : s.WellFormed) (b : Bool) : (s.finish b).WellFormed := by
  cases b
  · exact h.advance
  · exact (h.charge _ _ _).charge _ _ _

theorem chargeCondFail {s : State} (h : s.WellFormed) : s.chargeCondFail.WellFormed := by
  unfold State.chargeCondFail
  split
  · exact h
  · exact h.chargeCode _

theorem chargeWords {s : State} (h : s.WellFormed) (n : Nat) (a : Word) (k : AccessClass) :
    (State.chargeWords n a k s).WellFormed := by
  induction n generalizing a k s with
  | zero => exact h
  | succ n ih => exact ih (h.charge _ _ _) _ _

theorem writePc {s : State} (h : s.WellFormed) (v : Word) : (s.writePc v).WellFormed :=
  h.congr (by simpa using h.mem) (by simp) (by simp) (by simp) (by simp) (by simp) (by simp)
    (by simpa using s.alignPc_idem v) (by simpa using h.waitcnt)

theorem writePhys {s : State} (h : s.WellFormed) (r : PhysReg) (v : Word) : (s.writePhys r v).WellFormed := by
  refine h.congr (by simpa using h.mem) (by simp) (by simp) (by simp) (by simp) (by simp) (by simp) ?_ (by simpa using h.waitcnt)
  cases r <;> simp only [State.writePhys] <;> first | exact h.pc | exact s.alignPc_idem v

theorem writeBank {s : State} (h : s.WellFormed) (m : Mode) (n : Reg) (v : Word) : (s.writeBank m n v).WellFormed :=
  h.writePhys _ v

theorem writeReg {s : State} (h : s.WellFormed) (n : Reg) (v : Word) : (s.writeReg n v).WellFormed := h.writePhys _ v

theorem writeFlags {s : State} (h : s.WellFormed) (n z c v : Bool) : (s.writeFlags n z c v).WellFormed where
  mem := by simpa using h.mem
  cpsr := by simpa using h.cpsr
  mode := by simpa using h.mode
  spsrFiq := by simpa using h.spsrFiq
  spsrIrq := by simpa using h.spsrIrq
  spsrSvc := by simpa using h.spsrSvc
  spsrAbt := by simpa using h.spsrAbt
  spsrUnd := by simpa using h.spsrUnd
  pc := by
    have e : ∀ x, (s.writeFlags n z c v).alignPc x = s.alignPc x := fun x => by simp [State.alignPc]
    rw [e]; simpa using h.pc
  waitcnt := by simpa using h.waitcnt

theorem writeSpsrOf {s : State} (h : s.WellFormed) (m : Mode) (v : Word) : (s.writeSpsrOf m v).WellFormed := by
  cases m
  all_goals
    constructor <;> first
      | exact h.mem | exact h.cpsr | exact h.mode | exact h.spsrFiq | exact h.spsrIrq | exact h.spsrSvc | exact h.spsrAbt
      | exact h.spsrUnd | exact h.pc | exact h.waitcnt | exact reserved_implemented v

/-- A write of the CPSR with a mode that is one, and of the pc right after (R57, R66). -/
theorem writeCpsr_writePc {s : State} (h : s.WellFormed) (p v : Word) (hm : (Mode.ofBits? (psrM p)).isSome = true) :
    ((s.writeCpsr p).writePc v).WellFormed where
  mem := by simpa using h.mem
  cpsr := by simp
  mode := by simpa using hm
  spsrFiq := by simpa using h.spsrFiq
  spsrIrq := by simpa using h.spsrIrq
  spsrSvc := by simpa using h.spsrSvc
  spsrAbt := by simpa using h.spsrAbt
  spsrUnd := by simpa using h.spsrUnd
  pc := by
    rw [State.alignPc_congr (s := s.writeCpsr p) (by simp)]
    simpa using (s.writeCpsr p).alignPc_idem v
  waitcnt := by simpa using h.waitcnt

theorem returnFromException {s : State} (h : s.WellFormed) {p : Word} (v : Word)
    (hm : (Mode.ofBits? (psrM p)).isSome = true) : (s.returnFromException p v).WellFormed :=
  h.writeCpsr_writePc p v hm

/-- MSR leaves T, so the pc stays aligned (R70). -/
theorem writeCpsr {s : State} (h : s.WellFormed) (p : Word) (hm : (Mode.ofBits? (psrM p)).isSome = true)
    (ht : psrT p = psrT s.cpsr) : (s.writeCpsr p).WellFormed where
  mem := by simpa using h.mem
  cpsr := by simp
  mode := by simpa using hm
  spsrFiq := by simpa using h.spsrFiq
  spsrIrq := by simpa using h.spsrIrq
  spsrSvc := by simpa using h.spsrSvc
  spsrAbt := by simpa using h.spsrAbt
  spsrUnd := by simpa using h.spsrUnd
  pc := by
    have e1 : (s.writeCpsr p).thumb = s.thumb := by simp [State.thumb, ht]
    have e : ∀ x, (s.writeCpsr p).alignPc x = s.alignPc x := fun x => by simp only [State.alignPc, e1]
    rw [e]; simpa using h.pc
  waitcnt := by simpa using h.waitcnt

theorem writeThumb_writePc {s : State} (h : s.WellFormed) (b : Bool) (v : Word) : ((s.writeThumb b).writePc v).WellFormed where
  mem := by simpa using h.mem
  cpsr := by simpa using h.cpsr
  mode := by simpa using h.mode
  spsrFiq := by simpa using h.spsrFiq
  spsrIrq := by simpa using h.spsrIrq
  spsrSvc := by simpa using h.spsrSvc
  spsrAbt := by simpa using h.spsrAbt
  spsrUnd := by simpa using h.spsrUnd
  pc := by
    rw [State.alignPc_congr (s := s.writeThumb b) (by simp)]
    simpa using (s.writeThumb b).alignPc_idem v
  waitcnt := by simpa using h.waitcnt

/-- An exception entry at a vector aligned for ARM state (R602, R610). -/
theorem takeException {s : State} (h : s.WellFormed) (m : Mode) (vec lr : Word) (f : Bool) (hv : vec &&& 0xFFFFFFFC#32 = vec) :
    (s.takeException m vec lr f).WellFormed := by
  have h1 := h.writeCpsr_writePc (psrWithControl s.readCpsr true (f || psrF s.readCpsr) false m.bits) 0
    (by simp)
  have h2 := ((h1.writeSpsrOf m s.readCpsr).writeBank m 14 lr)
  have hc : (s.takeException m vec lr f).cpsr =
      psrWithControl s.readCpsr true (f || psrF s.readCpsr) false m.bits &&& psrImplemented := by
    simp [State.takeException]
  constructor
  · have := h2.mem; simpa [State.takeException] using this
  · rw [hc]; simp
  · rw [hc]; simp
  · have := h2.spsrFiq; cases m <;> simpa [State.takeException, State.writeSpsrOf] using this
  · have := h2.spsrIrq; cases m <;> simpa [State.takeException, State.writeSpsrOf] using this
  · have := h2.spsrSvc; cases m <;> simpa [State.takeException, State.writeSpsrOf] using this
  · have := h2.spsrAbt; cases m <;> simpa [State.takeException, State.writeSpsrOf] using this
  · have := h2.spsrUnd; cases m <;> simpa [State.takeException, State.writeSpsrOf] using this
  · have ht : (s.takeException m vec lr f).thumb = false := by simp [State.thumb, hc]
    simp only [State.alignPc, ht, Bool.false_eq_true, if_false]
    exact hv
  · have := h2.waitcnt; simpa [State.takeException] using this

theorem storeAt {s : State} (h : s.WellFormed) (k : StoreKind) (a v : Word) : (storeAt k a v s).WellFormed := by
  refine h.congr (storeAt_wf k a v s h.mem) ?_ ?_ ?_ ?_ ?_ ?_ ?_ ?_
  · cases k <;> simp [Sys2Proof.Machine.storeAt]
  · cases k <;> simp [Sys2Proof.Machine.storeAt]
  · cases k <;> simp [Sys2Proof.Machine.storeAt]
  · cases k <;> simp [Sys2Proof.Machine.storeAt]
  · cases k <;> simp [Sys2Proof.Machine.storeAt]
  · cases k <;> simp [Sys2Proof.Machine.storeAt]
  · cases k <;> simpa [Sys2Proof.Machine.storeAt] using h.pc
  · cases k
    · exact waitcntAfter_reserved _ _ _ (waitcntAfter_reserved _ _ _ (waitcntAfter_reserved _ _ _
        (waitcntAfter_reserved _ _ _ h.waitcnt)))
    · exact waitcntAfter_reserved _ _ _ h.waitcnt
    · exact waitcntAfter_reserved _ _ _ (waitcntAfter_reserved _ _ _ h.waitcnt)

theorem writeBase {s : State} (h : s.WellFormed) (wb : Option (Reg × Word)) : (writeBase wb s).WellFormed := by
  cases wb with
  | none => exact h
  | some p => exact h.writeReg p.1 p.2

theorem writeLoaded {s : State} (h : s.WellFormed) (wb : Option (Reg × Word)) (rd : Reg) (v : Word) :
    (writeLoaded wb rd v s).WellFormed := by
  unfold Machine.writeLoaded
  split
  · exact h.writeBase wb
  · exact (h.writeBase wb).writeReg rd v

theorem loadRegs {s : State} (h : s.WellFormed) (m : Mode) (a : Word) (l : List Reg) : (loadRegs m a l s).WellFormed := by
  induction l generalizing a s with
  | nil => exact h
  | cons r rest ih => exact ih (h.writeBank _ _ _) _

theorem storeRegs {s : State} (h : s.WellFormed) (val : Reg → Word) (a : Word) (k : AccessClass) (l : List Reg) :
    (storeRegs val a k l s).WellFormed := by
  induction l generalizing a k s with
  | nil => exact h
  | cons r rest ih => exact ih ((h.charge _ _ _).storeAt .word _ _) _ _

end State.WellFormed

/-! ## The shared bodies -/

/-- What every answer of an instruction keeps, on a well-formed state. -/
def KeepsWf (_s : State) (r : Result) : Prop := ∀ t, r = .next t → t.WellFormed

theorem KeepsWf.next {s t : State} (h : t.WellFormed) : KeepsWf s (.next t) := fun _ e => Host.Outcome.next.inj e ▸ h

theorem KeepsWf.conditional {c : Cond} {s : State} {body : Result} (h : s.WellFormed) (hb : KeepsWf s body) :
    KeepsWf s (conditional c s body) := by
  intro t e
  rcases conditional_next e with ⟨-, e⟩ | ⟨-, rfl⟩
  · exact hb t e
  · exact h.chargeCondFail.advance

theorem KeepsWf.checked {s : State} {bad : Bool} {c : UnpredictableCase} {k : Result} (hk : KeepsWf s k) :
    KeepsWf s (s.checked bad c k) := fun t e => hk t (checked_next.mp e).2

theorem KeepsWf.checkedPrefetch {s : State} {hit : Bool} {k : Result} (hk : KeepsWf s k) :
    KeepsWf s (s.checkedPrefetch hit k) := fun t e => hk t (checkedPrefetch_next.mp e).2

theorem keepsWf_dataProcess {s : State} (h : s.WellFormed) (op : AluOp) (sf : Bool) (rd : Reg) (a : Word) (o : Shifted) (x : Word) :
    KeepsWf s (dataProcess op sf rd a o x s) := by
  intro t e
  rcases dataProcess_next e with ⟨-, rfl⟩ | ⟨-, -, -, p, m, -, hm, rfl⟩ | ⟨-, -, -, rfl⟩ | ⟨-, -, rfl⟩
  · exact (((h.chargeCode _).internal _).writeFlags _ _ _ _).finish _
  · exact (((h.chargeCode _).internal _).returnFromException _ (by simp [hm])).finish _
  · exact ((((h.chargeCode _).internal _).writeReg _ _).writeFlags _ _ _ _).finish _
  · exact (((h.chargeCode _).internal _).writeReg _ _).finish _

theorem keepsWf_loadFrom {s : State} (h : s.WellFormed) (k : LoadKind) (rd : Reg) (a : Word) (wb : Option (Reg × Word)) :
    KeepsWf s (loadFrom k rd a wb s) :=
  .next (((((h.chargeCode _).charge _ _ _).internal _).writeLoaded _ _ _).finish _)

theorem keepsWf_storeTo {s : State} (h : s.WellFormed) (k : StoreKind) (a v : Word) (wb : Option (Reg × Word)) :
    KeepsWf s (storeTo k a v wb s) :=
  .checkedPrefetch (.next (((((h.chargeCode _).charge _ _ _).storeAt _ _ _).writeBase _).finish _))

theorem keepsWf_loadSingle {s : State} (h : s.WellFormed) (k : LoadKind) (p u w : Bool) (rn rd : Reg) (off : Word) :
    KeepsWf s (loadSingle k p u w rn rd off s) := .checked (keepsWf_loadFrom h _ _ _ _)

theorem keepsWf_storeSingle {s : State} (h : s.WellFormed) (k : StoreKind) (p u w : Bool) (rn rd : Reg) (off : Word) :
    KeepsWf s (storeSingle k p u w rn rd off s) := .checked (keepsWf_storeTo h _ _ _ _)

theorem keepsWf_blockLoad {s : State} (h : s.WellFormed) (p u ub w : Bool) (rn : Reg) (list : BitVec 16) :
    KeepsWf s (blockLoad p u ub w rn list s) := by
  intro t e
  unfold blockLoad at e
  obtain ⟨q, e, hq⟩ := checkedBlock_next e
  obtain rfl := Host.Outcome.next.inj e
  refine State.WellFormed.finish ?_ _
  have h1 := (((h.chargeCode .S).chargeWords (regsOf (effectiveList list)).length
    (blockStart p u (s.readReg rn) (effectiveCount list)) .N).internal 1)
  split
  · exact (h1.writeBase _).loadRegs _ _ _
  · split
    · rename_i hp hu
      have hp' : (effectiveList list).getLsbD 15 = true := by simpa using hp
      obtain ⟨-, m, hm⟩ := hq (by simp [hu]; simpa using hp)
      exact ((h1.writeBase _).loadRegs _ _ _).returnFromException _ (by simp [hm])
    · exact ((h1.writeBase _).loadRegs _ _ _).writePc _

theorem keepsWf_blockStore {s : State} (h : s.WellFormed) (p u ub w : Bool) (rn : Reg) (list : BitVec 16) :
    KeepsWf s (blockStore p u ub w rn list s) := by
  intro t e
  obtain ⟨q, e, -⟩ := checkedBlock_next e
  exact KeepsWf.checkedPrefetch (.next ((((h.chargeCode .N).storeRegs _ _ _ _).writeBase _).finish _)) t e

theorem keepsWf_swap {s : State} (h : s.WellFormed) (lk : LoadKind) (sk : StoreKind) (rn rd rm : Reg) :
    KeepsWf s (swap lk sk rn rd rm s) :=
  .checked (.checkedPrefetch (.next ((((((h.chargeCode _).charge _ _ _).charge _ _ _).storeAt _ _ _).internal _).writeReg _ _
    |>.finish _)))

theorem keepsWf_multiply {s : State} (h : s.WellFormed) (sf : Bool) (rd : Reg) (res m : Word) :
    KeepsWf s (multiply sf rd res m s) := by
  cases sf
  · exact .next ((((h.chargeCode _).internal _).writeReg _ _).finish _)
  · exact .next (((((h.chargeCode _).internal _).writeReg _ _).writeFlags _ _ _ _).finish _)

theorem keepsWf_multiplyLong {s : State} (h : s.WellFormed) (sf : Bool) (rdHi rdLo : Reg) (res : BitVec 64) (m : Word) :
    KeepsWf s (multiplyLong sf rdHi rdLo res m s) := by
  cases sf
  · exact .next (((((h.chargeCode _).internal _).writeReg _ _).writeReg _ _).finish _)
  · exact .next ((((((h.chargeCode _).internal _).writeReg _ _).writeReg _ _).writeFlags _ _ _ _).finish _)

theorem keepsWf_moveFromPsr {s : State} (h : s.WellFormed) (spsr : Bool) (rd : Reg) : KeepsWf s (moveFromPsr spsr rd s) := by
  unfold moveFromPsr
  split
  · intro t e; cases e
  · exact .checked (.next (((h.chargeCode _).writeReg _ _).finish _))

theorem psrT_msrCpsr (p v : Word) (mask : PsrMask) (b : Bool) : psrT (msrCpsr p v mask b) = psrT p := by
  unfold msrCpsr; dsimp only; split <;> split <;> simp

theorem keepsWf_moveToPsr {s : State} (h : s.WellFormed) (spsr : Bool) (mask : PsrMask) (fromPc : Bool) (v : Word) :
    KeepsWf s (moveToPsr spsr mask fromPc v s) := by
  unfold moveToPsr
  split
  · unfold moveToSpsr
    split
    · intro t e; cases e
    · exact .checked (.next (((h.chargeCode _).writeSpsrOf _ _).finish _))
  · unfold moveToCpsr
    refine .checked ?_
    split
    · intro t e; cases e
    · rename_i m hm
      refine .next (((h.chargeCode _).writeCpsr _ (by simp [hm]) ?_).finish _)
      rw [psrT_msrCpsr]
      simp [State.readCpsr]

theorem keepsWf_branchTo {s : State} (h : s.WellFormed) (v : Word) : KeepsWf s (branchTo v s) :=
  .next (((h.chargeCode _).writePc _).finish _)

theorem keepsWf_branchExchange {s : State} (h : s.WellFormed) (v : Word) : KeepsWf s (branchExchange v s) :=
  .next (((h.chargeCode _).writeThumb_writePc _ _).finish _)

theorem keepsWf_softwareInterrupt {s : State} (h : s.WellFormed) : KeepsWf s (softwareInterrupt s) :=
  .next (((h.chargeCode _).takeException _ _ _ _ (by decide)).finish _)

theorem keepsWf_writeAddress {s : State} (h : s.WellFormed) (rd : Reg) (v : Word) : KeepsWf s (writeAddress rd v s) :=
  .next (((h.chargeCode _).writeReg _ _).finish _)

end Sys2Proof.Machine
end

