-- ==== Sys2Proof/Tests/Slice0.lean ====
section
/-! SUPPORT. Tests. Expected results come from the encodings of 30_encoding.md, the vectors of 95_test_vectors.md, or a hand
calculation from the rule a comment names. -/

namespace Sys2Proof.Tests

open Sys2Proof.Machine

/-! ## Small states -/

/-- The register set to a value in the current mode. -/
def reg (n : Reg) (v : Word) (s : State) : State := s.writeBank s.mode n v

/-- The register set to a value in a bank. -/
def bank (m : Mode) (n : Reg) (v : Word) (s : State) : State := s.writeBank m n v

/-- The word stored at an address. -/
def word (a v : Word) (s : State) : State := { s with mem := (s.memWrite32 a v).mem }

def spsr (m : Mode) (v : Word) (s : State) : State := s.writeSpsrOf m v

def psr (v : Word) (s : State) : State := { s with cpsr := v }

def pc (v : Word) (s : State) : State := { s with pc := v }

def wait (v : Half) (s : State) : State := { s with waitcnt := v }

/-- The parameters set. -/
def par (c : Config) (s : State) : State := { s with config := c }

/-- The IRQ line asserted at the next sampling. -/
def irqLine (s : State) : State := { s with env := [{ irq := true }] }

/-- The raw instruction stored at the pc. -/
def code (thumb : Bool) (w : Nat) (s : State) : State :=
  { s with mem := Memory.load (if thumb then Code.thumb (BitVec.ofNat 16 w) else Code.arm (BitVec.ofNat 32 w)).bytes s.pc s.mem }

/-- The base state of 95_test_vectors.md, with further pages of 4096 bytes mapped. -/
def base (thumb : Bool) (pages : List Nat) : State :=
  let regions := [⟨0x08000000, 0x0A000000⟩, ⟨0x03000000, 0x03008000⟩] ++ pages.map fun p => ⟨p * 4096, p * 4096 + 4096⟩
  word 0x03000000 0x11223344
    { State.reset with pc := 0x08000000, cpsr := if thumb then 0x3F else 0x1F, mem := { regions := regions, cells := [] } }

/-- The step goes on to a state that passes. -/
def after (s : State) (p : State → Bool) : Bool :=
  match step s with
  | .next t => p t
  | _ => false

/-- The step stops with the fault. -/
def stopsWith (s : State) (f : Fault) : Bool :=
  match step s with
  | .fault g => g == f
  | _ => false

/-- The instruction goes on to a state that passes. -/
def runs (i : Instr) (s : State) (p : State → Bool) : Bool :=
  match exec i s with
  | .next t => p t
  | _ => false

/-! ## Decoding of words written out from the encodings -/

-- R151, R152, R260: data processing, immediate.
theorem test_decode_dp_imm :
    decode (.arm 0b1110_001_0000_1_0001_0010_0011_01000101#32) = .instr (.andImm .al true 1 2 3 0x45#8) ∧
    decode (.arm 0b1110_001_0001_0_0001_0010_0011_01000101#32) = .instr (.eorImm .al false 1 2 3 0x45#8) ∧
    decode (.arm 0b1110_001_0010_1_0001_0010_0011_01000101#32) = .instr (.subImm .al true 1 2 3 0x45#8) ∧
    decode (.arm 0b1110_001_0011_0_0001_0010_0011_01000101#32) = .instr (.rsbImm .al false 1 2 3 0x45#8) ∧
    decode (.arm 0b1110_001_0100_1_0001_0010_0011_01000101#32) = .instr (.addImm .al true 1 2 3 0x45#8) ∧
    decode (.arm 0b1110_001_0101_0_0001_0010_0011_01000101#32) = .instr (.adcImm .al false 1 2 3 0x45#8) ∧
    decode (.arm 0b1110_001_0110_1_0001_0010_0011_01000101#32) = .instr (.sbcImm .al true 1 2 3 0x45#8) ∧
    decode (.arm 0b1110_001_0111_0_0001_0010_0011_01000101#32) = .instr (.rscImm .al false 1 2 3 0x45#8) ∧
    decode (.arm 0b1110_001_1000_1_0001_0010_0011_01000101#32) = .instr (.tstImm .al 1 2 3 0x45#8) ∧
    decode (.arm 0b1110_001_1001_1_0001_0010_0011_01000101#32) = .instr (.teqImm .al 1 2 3 0x45#8) ∧
    decode (.arm 0b1110_001_1010_1_0001_0010_0011_01000101#32) = .instr (.cmpImm .al 1 2 3 0x45#8) ∧
    decode (.arm 0b1110_001_1011_1_0001_0010_0011_01000101#32) = .instr (.cmnImm .al 1 2 3 0x45#8) ∧
    decode (.arm 0b1110_001_1100_1_0001_0010_0011_01000101#32) = .instr (.orrImm .al true 1 2 3 0x45#8) ∧
    decode (.arm 0b1110_001_1101_0_0001_0010_0011_01000101#32) = .instr (.movImm .al false 1 2 3 0x45#8) ∧
    decode (.arm 0b1110_001_1110_1_0001_0010_0011_01000101#32) = .instr (.bicImm .al true 1 2 3 0x45#8) ∧
    decode (.arm 0b1110_001_1111_0_0001_0010_0011_01000101#32) = .instr (.mvnImm .al false 1 2 3 0x45#8) := by
  decide

-- R151, R152, R260: data processing, immediate shift.
theorem test_decode_dp_shimm :
    decode (.arm 0b0001_000_0000_1_0001_0010_10011_10_0_0101#32) = .instr (.andShimm .ne true 1 2 19 .asr 5) ∧
    decode (.arm 0b0001_000_0001_0_0001_0010_10011_10_0_0101#32) = .instr (.eorShimm .ne false 1 2 19 .asr 5) ∧
    decode (.arm 0b0001_000_0010_1_0001_0010_10011_10_0_0101#32) = .instr (.subShimm .ne true 1 2 19 .asr 5) ∧
    decode (.arm 0b0001_000_0011_0_0001_0010_10011_10_0_0101#32) = .instr (.rsbShimm .ne false 1 2 19 .asr 5) ∧
    decode (.arm 0b0001_000_0100_1_0001_0010_10011_10_0_0101#32) = .instr (.addShimm .ne true 1 2 19 .asr 5) ∧
    decode (.arm 0b0001_000_0101_0_0001_0010_10011_10_0_0101#32) = .instr (.adcShimm .ne false 1 2 19 .asr 5) ∧
    decode (.arm 0b0001_000_0110_1_0001_0010_10011_10_0_0101#32) = .instr (.sbcShimm .ne true 1 2 19 .asr 5) ∧
    decode (.arm 0b0001_000_0111_0_0001_0010_10011_10_0_0101#32) = .instr (.rscShimm .ne false 1 2 19 .asr 5) ∧
    decode (.arm 0b0001_000_1000_1_0001_0010_10011_10_0_0101#32) = .instr (.tstShimm .ne 1 2 19 .asr 5) ∧
    decode (.arm 0b0001_000_1001_1_0001_0010_10011_10_0_0101#32) = .instr (.teqShimm .ne 1 2 19 .asr 5) ∧
    decode (.arm 0b0001_000_1010_1_0001_0010_10011_10_0_0101#32) = .instr (.cmpShimm .ne 1 2 19 .asr 5) ∧
    decode (.arm 0b0001_000_1011_1_0001_0010_10011_10_0_0101#32) = .instr (.cmnShimm .ne 1 2 19 .asr 5) ∧
    decode (.arm 0b0001_000_1100_1_0001_0010_10011_10_0_0101#32) = .instr (.orrShimm .ne true 1 2 19 .asr 5) ∧
    decode (.arm 0b0001_000_1101_0_0001_0010_10011_10_0_0101#32) = .instr (.movShimm .ne false 1 2 19 .asr 5) ∧
    decode (.arm 0b0001_000_1110_1_0001_0010_10011_10_0_0101#32) = .instr (.bicShimm .ne true 1 2 19 .asr 5) ∧
    decode (.arm 0b0001_000_1111_0_0001_0010_10011_10_0_0101#32) = .instr (.mvnShimm .ne false 1 2 19 .asr 5) := by
  decide

-- R151, R152, R260: data processing, register shift.
theorem test_decode_dp_shreg :
    decode (.arm 0b1011_000_0000_1_0001_0010_0100_0_11_1_0101#32) = .instr (.andShreg .lt true 1 2 4 .ror 5) ∧
    decode (.arm 0b1011_000_0001_0_0001_0010_0100_0_11_1_0101#32) = .instr (.eorShreg .lt false 1 2 4 .ror 5) ∧
    decode (.arm 0b1011_000_0010_1_0001_0010_0100_0_11_1_0101#32) = .instr (.subShreg .lt true 1 2 4 .ror 5) ∧
    decode (.arm 0b1011_000_0011_0_0001_0010_0100_0_11_1_0101#32) = .instr (.rsbShreg .lt false 1 2 4 .ror 5) ∧
    decode (.arm 0b1011_000_0100_1_0001_0010_0100_0_11_1_0101#32) = .instr (.addShreg .lt true 1 2 4 .ror 5) ∧
    decode (.arm 0b1011_000_0101_0_0001_0010_0100_0_11_1_0101#32) = .instr (.adcShreg .lt false 1 2 4 .ror 5) ∧
    decode (.arm 0b1011_000_0110_1_0001_0010_0100_0_11_1_0101#32) = .instr (.sbcShreg .lt true 1 2 4 .ror 5) ∧
    decode (.arm 0b1011_000_0111_0_0001_0010_0100_0_11_1_0101#32) = .instr (.rscShreg .lt false 1 2 4 .ror 5) ∧
    decode (.arm 0b1011_000_1000_1_0001_0010_0100_0_11_1_0101#32) = .instr (.tstShreg .lt 1 2 4 .ror 5) ∧
    decode (.arm 0b1011_000_1001_1_0001_0010_0100_0_11_1_0101#32) = .instr (.teqShreg .lt 1 2 4 .ror 5) ∧
    decode (.arm 0b1011_000_1010_1_0001_0010_0100_0_11_1_0101#32) = .instr (.cmpShreg .lt 1 2 4 .ror 5) ∧
    decode (.arm 0b1011_000_1011_1_0001_0010_0100_0_11_1_0101#32) = .instr (.cmnShreg .lt 1 2 4 .ror 5) ∧
    decode (.arm 0b1011_000_1100_1_0001_0010_0100_0_11_1_0101#32) = .instr (.orrShreg .lt true 1 2 4 .ror 5) ∧
    decode (.arm 0b1011_000_1101_0_0001_0010_0100_0_11_1_0101#32) = .instr (.movShreg .lt false 1 2 4 .ror 5) ∧
    decode (.arm 0b1011_000_1110_1_0001_0010_0100_0_11_1_0101#32) = .instr (.bicShreg .lt true 1 2 4 .ror 5) ∧
    decode (.arm 0b1011_000_1111_0_0001_0010_0100_0_11_1_0101#32) = .instr (.mvnShreg .lt false 1 2 4 .ror 5) := by
  decide

-- R151, R153: MRS and MSR.
theorem test_decode_psr :
    decode (.arm 0b1110_00010_0_00_1111_0011_0000_0000_0000#32) = .instr (.mrs .al false 3) ∧
    decode (.arm 0b1110_00010_1_00_1111_0011_0000_0000_0000#32) = .instr (.mrs .al true 3) ∧
    decode (.arm 0b1110_00010_0_10_1000_1111_0000_0000_0110#32) = .instr (.msrReg .al false ⟨true, false, false, false⟩ 6) ∧
    decode (.arm 0b1110_00110_1_10_0001_1111_0100_11110000#32) = .instr (.msrImm .al true ⟨false, false, false, true⟩ 4 0xF0#8) := by
  decide

-- R151, R154: the multiplies.
theorem test_decode_multiply :
    decode (.arm 0b1110_000000_0_1_0011_0000_0101_1001_0111#32) = .instr (.mul .al true 3 5 7) ∧
    decode (.arm 0b1110_000000_1_0_0011_0100_0101_1001_0111#32) = .instr (.mla .al false 3 4 5 7) ∧
    decode (.arm 0b1110_00001_0_0_1_0011_0100_0101_1001_0111#32) = .instr (.umull .al true 3 4 5 7) ∧
    decode (.arm 0b1110_00001_0_1_0_0011_0100_0101_1001_0111#32) = .instr (.umlal .al false 3 4 5 7) ∧
    decode (.arm 0b1110_00001_1_0_1_0011_0100_0101_1001_0111#32) = .instr (.smull .al true 3 4 5 7) ∧
    decode (.arm 0b1110_00001_1_1_0_0011_0100_0101_1001_0111#32) = .instr (.smlal .al false 3 4 5 7) := by
  decide

-- R151, R155: SWP, SWPB and BX.
theorem test_decode_swap_bx :
    decode (.arm 0b1110_00010_0_00_0011_0100_0000_1001_0101#32) = .instr (.swp .al 3 4 5) ∧
    decode (.arm 0b1110_00010_1_00_0011_0100_0000_1001_0101#32) = .instr (.swpb .al 3 4 5) ∧
    decode (.arm 0b1110_0001_0010_1111_1111_1111_0001_1110#32) = .instr (.bx .al 14) := by
  decide

-- R151, R157, R326: single data transfer and its T forms.
theorem test_decode_single :
    decode (.arm 0b1110_010_1_0_0_1_0_0011_0100_100000000001#32) = .instr (.strImm .al true false true 3 4 0x801#12) ∧
    decode (.arm 0b1110_011_0_1_0_0_0_0011_0100_00110_01_0_0111#32) = .instr (.strReg .al false true false 3 4 6 .lsr 7) ∧
    decode (.arm 0b1110_010_0_1_0_1_0_0011_0100_000000000101#32) = .instr (.strtImm .al true 3 4 0x005#12) ∧
    decode (.arm 0b1110_011_0_0_0_1_0_0011_0100_00110_00_0_0111#32) = .instr (.strtReg .al false 3 4 6 .lsl 7) ∧
    decode (.arm 0b1110_010_1_0_0_1_1_0011_0100_100000000001#32) = .instr (.ldrImm .al true false true 3 4 0x801#12) ∧
    decode (.arm 0b1110_011_0_1_0_0_1_0011_0100_00110_01_0_0111#32) = .instr (.ldrReg .al false true false 3 4 6 .lsr 7) ∧
    decode (.arm 0b1110_010_0_1_0_1_1_0011_0100_000000000101#32) = .instr (.ldrtImm .al true 3 4 0x005#12) ∧
    decode (.arm 0b1110_011_0_0_0_1_1_0011_0100_00110_00_0_0111#32) = .instr (.ldrtReg .al false 3 4 6 .lsl 7) ∧
    decode (.arm 0b1110_010_1_0_1_1_0_0011_0100_100000000001#32) = .instr (.strbImm .al true false true 3 4 0x801#12) ∧
    decode (.arm 0b1110_011_0_1_1_0_0_0011_0100_00110_01_0_0111#32) = .instr (.strbReg .al false true false 3 4 6 .lsr 7) ∧
    decode (.arm 0b1110_010_0_1_1_1_0_0011_0100_000000000101#32) = .instr (.strbtImm .al true 3 4 0x005#12) ∧
    decode (.arm 0b1110_011_0_0_1_1_0_0011_0100_00110_00_0_0111#32) = .instr (.strbtReg .al false 3 4 6 .lsl 7) ∧
    decode (.arm 0b1110_010_1_0_1_1_1_0011_0100_100000000001#32) = .instr (.ldrbImm .al true false true 3 4 0x801#12) ∧
    decode (.arm 0b1110_011_0_1_1_0_1_0011_0100_00110_01_0_0111#32) = .instr (.ldrbReg .al false true false 3 4 6 .lsr 7) ∧
    decode (.arm 0b1110_010_0_1_1_1_1_0011_0100_000000000101#32) = .instr (.ldrbtImm .al true 3 4 0x005#12) ∧
    decode (.arm 0b1110_011_0_0_1_1_1_0011_0100_00110_00_0_0111#32) = .instr (.ldrbtReg .al false 3 4 6 .lsl 7) := by
  decide

-- R151, R156: halfword and signed transfer.
theorem test_decode_halfword :
    decode (.arm 0b1110_000_1_0_1_1_0_0011_0100_1010_1_0_1_1_0101#32) = .instr (.strhImm .al true false true 3 4 0xA5#8) ∧
    decode (.arm 0b1110_000_0_1_0_0_0_0011_0100_0000_1_0_1_1_0111#32) = .instr (.strhReg .al false true false 3 4 7) ∧
    decode (.arm 0b1110_000_1_0_1_1_1_0011_0100_1010_1_0_1_1_0101#32) = .instr (.ldrhImm .al true false true 3 4 0xA5#8) ∧
    decode (.arm 0b1110_000_0_1_0_0_1_0011_0100_0000_1_0_1_1_0111#32) = .instr (.ldrhReg .al false true false 3 4 7) ∧
    decode (.arm 0b1110_000_1_0_1_1_1_0011_0100_1010_1_1_0_1_0101#32) = .instr (.ldrsbImm .al true false true 3 4 0xA5#8) ∧
    decode (.arm 0b1110_000_0_1_0_0_1_0011_0100_0000_1_1_0_1_0111#32) = .instr (.ldrsbReg .al false true false 3 4 7) ∧
    decode (.arm 0b1110_000_1_0_1_1_1_0011_0100_1010_1_1_1_1_0101#32) = .instr (.ldrshImm .al true false true 3 4 0xA5#8) ∧
    decode (.arm 0b1110_000_0_1_0_0_1_0011_0100_0000_1_1_1_1_0111#32) = .instr (.ldrshReg .al false true false 3 4 7) := by
  decide

-- R151, R158, R340: block data transfer.
theorem test_decode_block :
    decode (.arm 0b1110_100_0_1_1_0_1_1101_1000000000000001#32) = .instr (.ldmia .al true false 13 0x8001#16) ∧
    decode (.arm 0b1110_100_0_1_0_1_0_1101_0100000000000010#32) = .instr (.stmia .al false true 13 0x4002#16) ∧
    decode (.arm 0b1110_100_1_1_1_0_1_1101_1000000000000001#32) = .instr (.ldmib .al true false 13 0x8001#16) ∧
    decode (.arm 0b1110_100_1_1_0_1_0_1101_0100000000000010#32) = .instr (.stmib .al false true 13 0x4002#16) ∧
    decode (.arm 0b1110_100_0_0_1_0_1_1101_1000000000000001#32) = .instr (.ldmda .al true false 13 0x8001#16) ∧
    decode (.arm 0b1110_100_0_0_0_1_0_1101_0100000000000010#32) = .instr (.stmda .al false true 13 0x4002#16) ∧
    decode (.arm 0b1110_100_1_0_1_0_1_1101_1000000000000001#32) = .instr (.ldmdb .al true false 13 0x8001#16) ∧
    decode (.arm 0b1110_100_1_0_0_1_0_1101_0100000000000010#32) = .instr (.stmdb .al false true 13 0x4002#16) := by
  decide

-- R151, R158: B, BL and SWI.
theorem test_decode_branch :
    decode (.arm 0b0000_101_0_100000000000000000000001#32) = .instr (.b .eq 0x800001#24) ∧
    decode (.arm 0b1110_101_1_011111111111111111111110#32) = .instr (.bl .al 0x7FFFFE#24) ∧
    decode (.arm 0b1110_1111_000000010010001101000101#32) = .instr (.swi .al 0x012345#24) := by
  decide

-- R180: formats 1, 2 and 3.
theorem test_decode_thumb_shift_add :
    decode (.thumb 0b000_00_10101_011_101#16) = .instr (.tLslImm 21 3 5) ∧
    decode (.thumb 0b000_01_10101_011_101#16) = .instr (.tLsrImm 21 3 5) ∧
    decode (.thumb 0b000_10_10101_011_101#16) = .instr (.tAsrImm 21 3 5) ∧
    decode (.thumb 0b00011_0_0_110_011_101#16) = .instr (.tAddReg 6 3 5) ∧
    decode (.thumb 0b00011_0_1_110_011_101#16) = .instr (.tSubReg 6 3 5) ∧
    decode (.thumb 0b00011_1_0_110_011_101#16) = .instr (.tAddImm3 6 3 5) ∧
    decode (.thumb 0b00011_1_1_110_011_101#16) = .instr (.tSubImm3 6 3 5) ∧
    decode (.thumb 0b001_00_101_10000001#16) = .instr (.tMovImm 5 0x81#8) ∧
    decode (.thumb 0b001_01_101_10000001#16) = .instr (.tCmpImm 5 0x81#8) ∧
    decode (.thumb 0b001_10_101_10000001#16) = .instr (.tAddImm8 5 0x81#8) ∧
    decode (.thumb 0b001_11_101_10000001#16) = .instr (.tSubImm8 5 0x81#8) := by
  decide

-- R180: format 4.
theorem test_decode_thumb_alu :
    decode (.thumb 0b010000_0000_011_101#16) = .instr (.tAnd 3 5) ∧
    decode (.thumb 0b010000_0001_011_101#16) = .instr (.tEor 3 5) ∧
    decode (.thumb 0b010000_0010_011_101#16) = .instr (.tLslReg 3 5) ∧
    decode (.thumb 0b010000_0011_011_101#16) = .instr (.tLsrReg 3 5) ∧
    decode (.thumb 0b010000_0100_011_101#16) = .instr (.tAsrReg 3 5) ∧
    decode (.thumb 0b010000_0101_011_101#16) = .instr (.tAdc 3 5) ∧
    decode (.thumb 0b010000_0110_011_101#16) = .instr (.tSbc 3 5) ∧
    decode (.thumb 0b010000_0111_011_101#16) = .instr (.tRor 3 5) ∧
    decode (.thumb 0b010000_1000_011_101#16) = .instr (.tTst 3 5) ∧
    decode (.thumb 0b010000_1001_011_101#16) = .instr (.tNeg 3 5) ∧
    decode (.thumb 0b010000_1010_011_101#16) = .instr (.tCmpReg 3 5) ∧
    decode (.thumb 0b010000_1011_011_101#16) = .instr (.tCmn 3 5) ∧
    decode (.thumb 0b010000_1100_011_101#16) = .instr (.tOrr 3 5) ∧
    decode (.thumb 0b010000_1101_011_101#16) = .instr (.tMul 3 5) ∧
    decode (.thumb 0b010000_1110_011_101#16) = .instr (.tBic 3 5) ∧
    decode (.thumb 0b010000_1111_011_101#16) = .instr (.tMvn 3 5) := by
  decide

-- R180: format 5.
theorem test_decode_thumb_hi :
    decode (.thumb 0b010001_00_1_0_011_101#16) = .instr (.tAddHi true false 3 5) ∧
    decode (.thumb 0b010001_01_0_1_011_101#16) = .instr (.tCmpHi false true 3 5) ∧
    decode (.thumb 0b010001_10_1_1_011_101#16) = .instr (.tMovHi true true 3 5) ∧
    decode (.thumb 0b010001_11_0_1_110_000#16) = .instr (.tBx false true 6 0) := by
  decide

-- R180: formats 6 to 11.
theorem test_decode_thumb_memory :
    decode (.thumb 0b01001_101_10000001#16) = .instr (.tLdrPc 5 0x81#8) ∧
    decode (.thumb 0b0101_0_0_0_110_011_101#16) = .instr (.tStrReg 6 3 5) ∧
    decode (.thumb 0b0101_0_1_0_110_011_101#16) = .instr (.tStrbReg 6 3 5) ∧
    decode (.thumb 0b0101_1_0_0_110_011_101#16) = .instr (.tLdrReg 6 3 5) ∧
    decode (.thumb 0b0101_1_1_0_110_011_101#16) = .instr (.tLdrbReg 6 3 5) ∧
    decode (.thumb 0b0101_0_0_1_110_011_101#16) = .instr (.tStrhReg 6 3 5) ∧
    decode (.thumb 0b0101_0_1_1_110_011_101#16) = .instr (.tLdsb 6 3 5) ∧
    decode (.thumb 0b0101_1_0_1_110_011_101#16) = .instr (.tLdrhReg 6 3 5) ∧
    decode (.thumb 0b0101_1_1_1_110_011_101#16) = .instr (.tLdsh 6 3 5) ∧
    decode (.thumb 0b011_0_0_10101_011_101#16) = .instr (.tStrImm 21 3 5) ∧
    decode (.thumb 0b011_0_1_10101_011_101#16) = .instr (.tLdrImm 21 3 5) ∧
    decode (.thumb 0b011_1_0_10101_011_101#16) = .instr (.tStrbImm 21 3 5) ∧
    decode (.thumb 0b011_1_1_10101_011_101#16) = .instr (.tLdrbImm 21 3 5) ∧
    decode (.thumb 0b1000_0_10101_011_101#16) = .instr (.tStrhImm 21 3 5) ∧
    decode (.thumb 0b1000_1_10101_011_101#16) = .instr (.tLdrhImm 21 3 5) ∧
    decode (.thumb 0b1001_0_101_10000001#16) = .instr (.tStrSp 5 0x81#8) ∧
    decode (.thumb 0b1001_1_101_10000001#16) = .instr (.tLdrSp 5 0x81#8) := by
  decide

-- R180: formats 12 to 19.
theorem test_decode_thumb_rest :
    decode (.thumb 0b1010_0_101_10000001#16) = .instr (.tAddPc 5 0x81#8) ∧
    decode (.thumb 0b1010_1_101_10000001#16) = .instr (.tAddSp 5 0x81#8) ∧
    decode (.thumb 0b10110000_0_1000001#16) = .instr (.tAddSpImm 0x41#7) ∧
    decode (.thumb 0b10110000_1_1000001#16) = .instr (.tSubSpImm 0x41#7) ∧
    decode (.thumb 0b1011_0_10_1_10000001#16) = .instr (.tPush true 0x81#8) ∧
    decode (.thumb 0b1011_1_10_0_10000001#16) = .instr (.tPop false 0x81#8) ∧
    decode (.thumb 0b1100_0_011_10000001#16) = .instr (.tStmia 3 0x81#8) ∧
    decode (.thumb 0b1100_1_011_10000001#16) = .instr (.tLdmia 3 0x81#8) ∧
    decode (.thumb 0b1101_1101_10000001#16) = .instr (.tBcond .le 0x81#8) ∧
    decode (.thumb 0b11011111_10000001#16) = .instr (.tSwi 0x81#8) ∧
    decode (.thumb 0b11100_10000000001#16) = .instr (.tB 0x401#11) ∧
    decode (.thumb 0b1111_0_10000000001#16) = .instr (.tBlHi 0x401#11) ∧
    decode (.thumb 0b1111_1_10000000001#16) = .instr (.tBlLo 0x401#11) := by
  decide

/-! ## Vectors of 95_test_vectors.md -/

-- SH-15: MOVS R0, R1, LSL R2 (R2 = 32); 40 R232.
theorem test_sh_15 : after (base false [] |> reg 1 1 |> reg 2 0x20 |> code false 0xE1B00211)
    (fun t => t.cpsr == 0x6000001f && t.pc == 0x8000004 && t.cyclesOut == 7) = true := by
  decide

-- LS-41: STMDB R0, (R4-R7) (the source example, base 0xFF00); 43 R369.
theorem test_ls_41 : after (base false [0xf] |> reg 0 0xff00 |> reg 4 4 |> reg 5 5 |> reg 6 6 |> reg 7 7 |> word 0xfef0 0 |> code false 0xE90000F0)
    (fun t => t.pc == 0x8000004 && t.memRead32 0x0000fef0 == 4 && t.memRead32 0x0000fef4 == 5 && t.memRead32 0x0000fef8 == 6 && t.cyclesOut == 12) = true := by
  decide

-- MUL-09: UMULL R0, R1, R2, R3; 42 R305.
theorem test_mul_09 : after (base false [] |> reg 2 0x14 |> reg 3 0xfffffff6 |> code false 0xE0810392)
    (fun t => t.readReg 0 == 0xffffff38 && t.readReg 1 == 0x13 && t.pc == 0x8000004 && t.cyclesOut == 11) = true := by
  decide

-- MUL-11: SMULL R0, R1, R2, R3; 42 R307.
theorem test_mul_11 : after (base false [] |> reg 2 0x14 |> reg 3 0xfffffff6 |> code false 0xE0C10392)
    (fun t => t.readReg 0 == 0xffffff38 && t.readReg 1 == 0xffffffff && t.pc == 0x8000004 && t.cyclesOut == 8) = true := by
  decide

-- MUL-03: MLAS R0, R1, R2, R3; 42 R304.
theorem test_mul_03 : after (base false [] |> psr 0x3000001f |> reg 1 0x80000000 |> reg 2 1 |> reg 3 0 |> code false 0xE0303291)
    (fun t => t.readReg 0 == 0x80000000 && t.cpsr == 0xb000001f && t.pc == 0x8000004 && t.cyclesOut == 8) = true := by
  decide

-- MUL-04: MULS R0, R1, R2 (zero result, C V kept); 42 R303.
theorem test_mul_04 : after (base false [] |> psr 0x3000001f |> reg 1 0x10000 |> reg 2 0x10000 |> code false 0xE0100291)
    (fun t => t.cpsr == 0x7000001f && t.pc == 0x8000004 && t.cyclesOut == 9) = true := by
  decide

-- COND-30: MOVNV R0, #1; 40 R220; 30 R164.
theorem test_cond_30 : after (base false [] |> psr 0xf000001f |> code false 0xF3A00001)
    (fun t => t.pc == 0x8000004 && t.cyclesOut == 0) = true := by
  decide

-- COND-31: MOVNV R0, #1; 40 R221; 92 D12.
theorem test_cond_31 : stopsWith (base false [] |> par { nvCond := .fault } |> code false 0xF3A00001) (.neverCondition) = true := by decide

-- DP-25: MOVS PC, LR in System mode; 41 R265; 10 R62.
theorem test_dp_25 : stopsWith (base false [] |> reg 14 0x8000100 |> code false 0xE1B0F00E) (.spsrUnavailable) = true := by decide

-- COND-33: EQ-conditioned word in the undefined space, Z = 0; 30 R162.
theorem test_cond_33 : stopsWith (base false [] |> psr 0x1f |> code false 0x06000010) (.decodeError 0x6000010 0x601 .arm) = true := by
  decide

-- SH-01: MOVS R0, R1, LSL #0; 40 R226.
theorem test_sh_01 : after (base false [] |> psr 0x2000001f |> reg 1 0x80000001 |> code false 0xE1B00001)
    (fun t => t.readReg 0 == 0x80000001 && t.cpsr == 0xa000001f && t.pc == 0x8000004 && t.cyclesOut == 6) = true := by
  decide

-- SH-26: ADD R0, R15, R1, LSL R2; 40 R237; 92 D9.
theorem test_sh_26 : after (base false [] |> reg 1 1 |> reg 2 4 |> code false 0xE08F0211)
    (fun t => t.readReg 0 == 0x8000018 && t.pc == 0x8000004 && t.cyclesOut == 7) = true := by
  decide

-- SH-28: MOV R0, R1, LSL R15; 40 R237.
theorem test_sh_28 : stopsWith (base false [] |> reg 1 1 |> code false 0xE1A00F11) (.unpredictable .rsIsPC) = true := by decide

-- SH-30: ADDS R0, R1, R2, LSL #1 (arithmetic discards shifter carry); 40 R236.
theorem test_sh_30 : after (base false [] |> reg 1 0 |> reg 2 0x80000000 |> code false 0xE0910082)
    (fun t => t.cpsr == 0x4000001f && t.pc == 0x8000004 && t.cyclesOut == 6) = true := by
  decide

-- DP-01: ANDS R0, R1, R2; 41 R268.
theorem test_dp_01 : after (base false [] |> reg 1 0xf0f0f0f0 |> reg 2 0xff00ff0 |> code false 0xE0110002)
    (fun t => t.readReg 0 == 0xf000f0 && t.pc == 0x8000004 && t.cyclesOut == 6) = true := by
  decide

-- DP-02: EOR R0, R1, R2; 41 R269.
theorem test_dp_02 : after (base false [] |> reg 1 0xffff0000 |> reg 2 0xff00ff00 |> code false 0xE0210002)
    (fun t => t.readReg 0 == 0xffff00 && t.pc == 0x8000004 && t.cyclesOut == 6) = true := by
  decide

-- DP-03: SUBS R0, R1, R2; 41 R270.
theorem test_dp_03 : after (base false [] |> reg 1 5 |> reg 2 7 |> code false 0xE0510002)
    (fun t => t.readReg 0 == 0xfffffffe && t.cpsr == 0x8000001f && t.pc == 0x8000004 && t.cyclesOut == 6) = true := by
  decide

-- DP-04: SUBS R0, R1, #1; 41 R270.
theorem test_dp_04 : after (base false [] |> reg 1 0x80000000 |> code false 0xE2510001)
    (fun t => t.readReg 0 == 0x7fffffff && t.cpsr == 0x3000001f && t.pc == 0x8000004 && t.cyclesOut == 6) = true := by
  decide

-- DP-05: RSBS R0, R1, #0; 41 R271.
theorem test_dp_05 : after (base false [] |> reg 1 1 |> code false 0xE2710000)
    (fun t => t.readReg 0 == 0xffffffff && t.cpsr == 0x8000001f && t.pc == 0x8000004 && t.cyclesOut == 6) = true := by
  decide

-- DP-09: ADCS R0, R1, R2; 41 R273.
theorem test_dp_09 : after (base false [] |> psr 0x2000001f |> reg 1 0xffffffff |> reg 2 0 |> code false 0xE0B10002)
    (fun t => t.cpsr == 0x6000001f && t.pc == 0x8000004 && t.cyclesOut == 6) = true := by
  decide

-- DP-10: SBCS R0, R1, R2; 41 R274.
theorem test_dp_10 : after (base false [] |> psr 0x1f |> reg 1 5 |> reg 2 3 |> code false 0xE0D10002)
    (fun t => t.readReg 0 == 1 && t.cpsr == 0x2000001f && t.pc == 0x8000004 && t.cyclesOut == 6) = true := by
  decide

-- DP-11: RSCS R0, R1, R2; 41 R275.
theorem test_dp_11 : after (base false [] |> psr 0x2000001f |> reg 1 3 |> reg 2 5 |> code false 0xE0F10002)
    (fun t => t.readReg 0 == 2 && t.pc == 0x8000004 && t.cyclesOut == 6) = true := by
  decide

-- DP-12: TST R1, #0x80; 41 R276.
theorem test_dp_12 : after (base false [] |> reg 1 0x80 |> code false 0xE3110080)
    (fun t => t.pc == 0x8000004 && t.cyclesOut == 6) = true := by
  decide

-- DP-14: TEQ R1, R1; 41 R277.
theorem test_dp_14 : after (base false [] |> reg 1 0x80000000 |> code false 0xE1310001)
    (fun t => t.cpsr == 0x4000001f && t.pc == 0x8000004 && t.cyclesOut == 6) = true := by
  decide

-- DP-15: CMP R1, R2; 41 R278.
theorem test_dp_15 : after (base false [] |> reg 1 9 |> reg 2 9 |> code false 0xE1510002)
    (fun t => t.cpsr == 0x6000001f && t.pc == 0x8000004 && t.cyclesOut == 6) = true := by
  decide

-- DP-16: CMN R1, #1; 41 R279.
theorem test_dp_16 : after (base false [] |> reg 1 0xffffffff |> code false 0xE3710001)
    (fun t => t.cpsr == 0x6000001f && t.pc == 0x8000004 && t.cyclesOut == 6) = true := by
  decide

-- DP-17: ORR R0, R1, #0xF0; 41 R280.
theorem test_dp_17 : after (base false [] |> reg 1 0xf |> code false 0xE38100F0)
    (fun t => t.readReg 0 == 0xff && t.pc == 0x8000004 && t.cyclesOut == 6) = true := by
  decide

-- DP-19: BIC R0, R1, #0xFF; 41 R282.
theorem test_dp_19 : after (base false [] |> reg 1 0x12345678 |> code false 0xE3C100FF)
    (fun t => t.readReg 0 == 0x12345600 && t.pc == 0x8000004 && t.cyclesOut == 6) = true := by
  decide

-- DP-20: MVNS R0, #0; 41 R283.
theorem test_dp_20 : after (base false [] |> code false 0xE3F00000)
    (fun t => t.readReg 0 == 0xffffffff && t.cpsr == 0x8000001f && t.pc == 0x8000004 && t.cyclesOut == 6) = true := by
  decide

-- DP-21: ADD R0, PC, #4 (R15 reads pc + 8); 41 R272; 10 R64.
theorem test_dp_21 : after (base false [] |> code false 0xE28F0004)
    (fun t => t.readReg 0 == 0x800000c && t.pc == 0x8000004 && t.cyclesOut == 6) = true := by
  decide

-- DP-26: MOVS PC, LR in IRQ mode, SPSR mode bits 0; 41 R265; 10 R57.
theorem test_dp_26 : stopsWith (base false [] |> psr 0x92 |> bank .irq 14 0x8000100 |> spsr .irq 0 |> code false 0xE1B0F00E) (.invalidMode 0x0) = true := by
  decide

-- DP-28: MRS R0, CPSR; 41 R284.
theorem test_dp_28 : after (base false [] |> psr 0x600000df |> code false 0xE10F0000)
    (fun t => t.readReg 0 == 0x600000df && t.pc == 0x8000004 && t.cyclesOut == 6) = true := by
  decide

-- DP-31: MRS PC, CPSR; 41 R284; 92 D45.
theorem test_dp_31 : stopsWith (base false [] |> code false 0xE10FF000) (.unpredictable .mrsToPC) = true := by decide

-- DP-32: MSR CPSR_c, R0 (SVC to System); 41 R287.
theorem test_dp_32 : after (base false [] |> psr 0xd3 |> reg 0 0x1f |> code false 0xE121F000)
    (fun t => t.cpsr == 0x1f && t.pc == 0x8000004 && t.cyclesOut == 6) = true := by
  decide

-- DP-34: MSR CPSR_f, #0xF0000000; 41 R286, R287.
theorem test_dp_34 : after (base false [] |> psr 0x10 |> code false 0xE328F20F)
    (fun t => t.cpsr == 0xf0000010 && t.pc == 0x8000004 && t.cyclesOut == 6) = true := by
  decide

-- DP-39: MSR CPSR_c, PC; 41 R285.
theorem test_dp_39 : stopsWith (base false [] |> code false 0xE121F00F) (.unpredictable .msrFromPC) = true := by decide

-- MUL-07: MUL R0, R0, R2 (Rd = Rm); 42 R302.
theorem test_mul_07 : stopsWith (base false [] |> reg 0 1 |> reg 2 2 |> code false 0xE0000290) (.unpredictable .mulRegisters) = true := by
  decide

-- MUL-10: UMLAL R0, R1, R2, R3; 42 R306.
theorem test_mul_10 : after (base false [] |> reg 0 0xffffffff |> reg 1 0 |> reg 2 1 |> reg 3 1 |> code false 0xE0A10392)
    (fun t => t.readReg 0 == 0 && t.readReg 1 == 1 && t.pc == 0x8000004 && t.cyclesOut == 9) = true := by
  decide

-- MUL-12: SMLAL R0, R1, R2, R3; 42 R308.
theorem test_mul_12 : after (base false [] |> reg 2 0xffffffff |> reg 3 2 |> code false 0xE0E10392)
    (fun t => t.readReg 0 == 0xfffffffe && t.readReg 1 == 0xffffffff && t.pc == 0x8000004 && t.cyclesOut == 9) = true := by
  decide

-- LS-01: LDR R0, [R1, #4]; 43 R321.
theorem test_ls_01 : after (base false [] |> reg 1 0x3000000 |> word 0x3000004 0x55667788 |> code false 0xE5910004)
    (fun t => t.readReg 0 == 0x55667788 && t.pc == 0x8000004 && t.cyclesOut == 8) = true := by
  decide

-- LS-05: LDRB R0, [R1, #1]; 43 R322.
theorem test_ls_05 : after (base false [] |> reg 1 0x3000000 |> code false 0xE5D10001)
    (fun t => t.readReg 0 == 0x33 && t.pc == 0x8000004 && t.cyclesOut == 8) = true := by
  decide

-- LS-06: STR R0, [R1, #-4]!; 43 R323.
theorem test_ls_06 : after (base false [] |> reg 0 0xdeadbeef |> reg 1 0x3000008 |> code false 0xE5210004)
    (fun t => t.readReg 1 == 0x3000004 && t.pc == 0x8000004 && t.memRead32 0x03000004 == 0xdeadbeef && t.cyclesOut == 9) = true := by
  decide

-- LS-08: STRB R0, [R1], #1; 43 R324.
theorem test_ls_08 : after (base false [] |> reg 0 0x12345678 |> reg 1 0x3000000 |> code false 0xE4C10001)
    (fun t => t.readReg 1 == 0x3000001 && t.pc == 0x8000004 && t.memRead32 0x03000000 == 0x11223378 && t.cyclesOut == 9) = true := by
  decide

-- LS-12: LDR R0, [R1], R2, LSL #2 (post-indexed); 43 R320; 40 R245.
theorem test_ls_12 : after (base false [] |> reg 1 0x3000000 |> reg 2 1 |> code false 0xE6910102)
    (fun t => t.readReg 0 == 0x11223344 && t.readReg 1 == 0x3000004 && t.pc == 0x8000004 && t.cyclesOut == 8) = true := by
  decide

-- LS-16: LDR R0, [R1, R15]; 40 R246.
theorem test_ls_16 : stopsWith (base false [] |> reg 1 0x3000000 |> code false 0xE791000F) (.unpredictable .rmIsPC) = true := by decide

-- LS-17: LDR R0, [PC], #4; 40 R249.
theorem test_ls_17 : stopsWith (base false [] |> code false 0xE49F0004) (.unpredictable .writebackPC) = true := by decide

-- LS-18: LDRB PC, [R1]; 43 R330.
theorem test_ls_18 : stopsWith (base false [] |> reg 1 0x3000000 |> code false 0xE5D1F000) (.unpredictable .bytePC) = true := by decide

-- LS-19: LDRT R0, [R1], #4; 43 R326.
theorem test_ls_19 : after (base false [] |> reg 1 0x3000000 |> code false 0xE4B10004)
    (fun t => t.readReg 0 == 0x11223344 && t.readReg 1 == 0x3000004 && t.pc == 0x8000004 && t.cyclesOut == 8) = true := by
  decide

-- LS-20: LDRBT R0, [R1], #1; 43 R327.
theorem test_ls_20 : after (base false [] |> reg 1 0x3000000 |> code false 0xE4F10001)
    (fun t => t.readReg 0 == 0x44 && t.readReg 1 == 0x3000001 && t.pc == 0x8000004 && t.cyclesOut == 8) = true := by
  decide

-- LS-21: STRT R0, [R1], #4; 43 R328.
theorem test_ls_21 : after (base false [] |> reg 0 5 |> reg 1 0x3000000 |> code false 0xE4A10004)
    (fun t => t.readReg 1 == 0x3000004 && t.pc == 0x8000004 && t.memRead32 0x03000000 == 5 && t.cyclesOut == 9) = true := by
  decide

-- LS-22: STRBT R0, [R1], #1; 43 R329.
theorem test_ls_22 : after (base false [] |> reg 0 0x1ff |> reg 1 0x3000000 |> code false 0xE4E10001)
    (fun t => t.readReg 1 == 0x3000001 && t.pc == 0x8000004 && t.memRead32 0x03000000 == 0x112233ff && t.cyclesOut == 9) = true := by
  decide

-- LS-23: STRH R0, [R1, #2]; 43 R332.
theorem test_ls_23 : after (base false [] |> reg 0 0xaabbccdd |> reg 1 0x3000000 |> code false 0xE1C100B2)
    (fun t => t.pc == 0x8000004 && t.memRead32 0x03000000 == 0xccdd3344 && t.cyclesOut == 9) = true := by
  decide

-- LS-25: LDRH R0, [R1, #2]; 43 R333.
theorem test_ls_25 : after (base false [] |> reg 1 0x3000000 |> code false 0xE1D100B2)
    (fun t => t.readReg 0 == 0x1122 && t.pc == 0x8000004 && t.cyclesOut == 8) = true := by
  decide

-- LS-28: LDRSB R0, [R1, #1]; 43 R334.
theorem test_ls_28 : after (base false [] |> reg 1 0x3000000 |> word 0x3000000 0x11228044 |> code false 0xE1D100D1)
    (fun t => t.readReg 0 == 0xffffff80 && t.pc == 0x8000004 && t.cyclesOut == 8) = true := by
  decide

-- LS-29: LDRSH R0, [R1, #2]; 43 R335.
theorem test_ls_29 : after (base false [] |> reg 1 0x3000000 |> word 0x3000000 0x80003344 |> code false 0xE1D100F2)
    (fun t => t.readReg 0 == 0xffff8000 && t.pc == 0x8000004 && t.cyclesOut == 8) = true := by
  decide

-- LS-32: LDRH R0, [R1], -R2 (register offset, post-indexed); 43 R331; 40 R247.
theorem test_ls_32 : after (base false [] |> reg 1 0x3000000 |> reg 2 8 |> code false 0xE01100B2)
    (fun t => t.readReg 0 == 0x3344 && t.readReg 1 == 0x2fffff8 && t.pc == 0x8000004 && t.cyclesOut == 8) = true := by
  decide

-- LS-33: LDRH PC, [R1]; 43 R331.
theorem test_ls_33 : stopsWith (base false [] |> reg 1 0x3000000 |> code false 0xE1D1F0B0) (.unpredictable .halfwordPC) = true := by decide

-- LS-34: LDMIA R0!, (R1-R4); 43 R362.
theorem test_ls_34 : after (base false [] |> reg 0 0x3000000 |> word 0x3000000 1 |> word 0x3000004 2 |> word 0x3000008 3 |> word 0x300000c 4 |> code false 0xE8B0001E)
    (fun t => t.readReg 0 == 0x3000010 && t.readReg 1 == 1 && t.readReg 2 == 2 && t.readReg 3 == 3 && t.cyclesOut == 11) = true := by
  decide

-- LS-35: LDMIB R0, (R1, R2); 43 R363.
theorem test_ls_35 : after (base false [] |> reg 0 0x3000000 |> word 0x3000004 5 |> word 0x3000008 6 |> code false 0xE9900006)
    (fun t => t.readReg 1 == 5 && t.readReg 2 == 6 && t.pc == 0x8000004 && t.cyclesOut == 9) = true := by
  decide

-- LS-36: LDMDA R0, (R1, R2); 43 R364.
theorem test_ls_36 : after (base false [] |> reg 0 0x3000008 |> word 0x3000004 5 |> word 0x3000008 6 |> code false 0xE8100006)
    (fun t => t.readReg 1 == 5 && t.readReg 2 == 6 && t.pc == 0x8000004 && t.cyclesOut == 9) = true := by
  decide

-- LS-37: LDMDB R0, (R1, R2); 43 R365.
theorem test_ls_37 : after (base false [] |> reg 0 0x3000008 |> word 0x3000000 5 |> word 0x3000004 6 |> code false 0xE9100006)
    (fun t => t.readReg 1 == 5 && t.readReg 2 == 6 && t.pc == 0x8000004 && t.cyclesOut == 9) = true := by
  decide

-- LS-38: STMIA R0!, (R1-R4); 43 R366.
theorem test_ls_38 : after (base false [] |> reg 0 0x3000000 |> reg 1 1 |> reg 2 2 |> reg 3 3 |> reg 4 4 |> code false 0xE8A0001E)
    (fun t => t.readReg 0 == 0x3000010 && t.pc == 0x8000004 && t.memRead32 0x03000000 == 1 && t.memRead32 0x03000004 == 2 && t.cyclesOut == 12) = true := by
  decide

-- LS-39: STMIB R0, (R1, R2); 43 R367.
theorem test_ls_39 : after (base false [] |> reg 0 0x3000000 |> reg 1 7 |> reg 2 8 |> code false 0xE9800006)
    (fun t => t.pc == 0x8000004 && t.memRead32 0x03000004 == 7 && t.memRead32 0x03000008 == 8 && t.cyclesOut == 10) = true := by
  decide

-- LS-40: STMDA R0, (R1, R2); 43 R368.
theorem test_ls_40 : after (base false [] |> reg 0 0x3000008 |> reg 1 7 |> reg 2 8 |> code false 0xE8000006)
    (fun t => t.pc == 0x8000004 && t.memRead32 0x03000004 == 7 && t.memRead32 0x03000008 == 8 && t.cyclesOut == 10) = true := by
  decide

-- LS-44: STMIA R1!, (R0, R1) (base not first); 43 R345.
theorem test_ls_44 : stopsWith (base false [] |> reg 1 0x3000000 |> code false 0xE8A10003) (.unpredictable .stmBaseNotFirst) = true := by
  decide

-- LS-46: LDMIA R0, () (empty list); 43 R346.
theorem test_ls_46 : stopsWith (base false [] |> reg 0 0x3000000 |> code false 0xE8900000) (.unpredictable .emptyRegisterList) = true := by
  decide

-- LS-52: LDMIA R0, (R1)^ in System mode; 43 R349.
theorem test_ls_52 : stopsWith (base false [] |> reg 0 0x3000000 |> code false 0xE8D00002) (.unpredictable .userBankTransfer) = true := by
  decide

-- LS-56: LDMIA PC, (R1); 43 section 5.
theorem test_ls_56 : stopsWith (base false [] |> code false 0xE89F0002) (.unpredictable .blockBasePC) = true := by decide

-- LS-58: SWP R0, R1, [R2]; 43 R360.
theorem test_ls_58 : after (base false [] |> reg 1 5 |> reg 2 0x3000000 |> code false 0xE1020091)
    (fun t => t.readReg 0 == 0x11223344 && t.pc == 0x8000004 && t.memRead32 0x03000000 == 5 && t.cyclesOut == 9) = true := by
  decide

-- LS-59: SWPB R0, R1, [R2]; 43 R361.
theorem test_ls_59 : after (base false [] |> reg 1 0x1ff |> reg 2 0x3000001 |> code false 0xE1420091)
    (fun t => t.readReg 0 == 0x33 && t.pc == 0x8000004 && t.memRead32 0x03000000 == 0x1122ff44 && t.cyclesOut == 9) = true := by
  decide

-- LS-61: SWP R2, R1, [R2] (Rn = Rd); 43 R360.
theorem test_ls_61 : stopsWith (base false [] |> reg 2 0x3000000 |> code false 0xE1022091) (.unpredictable .swapRegisters) = true := by
  decide

-- BR-01: B .; 44 R370.
theorem test_br_01 : after (base false [] |> code false 0xEAFFFFFE) (fun t => t.pc == 0x8000000 && t.cyclesOut == 20) = true := by decide

-- BR-02: BL +0xF8; 44 R371.
theorem test_br_02 : after (base false [] |> code false 0xEB00003E)
    (fun t => t.readBank .usr 14 == 0x8000004 && t.pc == 0x8000100 && t.cyclesOut == 20) = true := by
  decide

-- BR-04: BX R0 (to Thumb); 44 R373.
theorem test_br_04 : after (base false [] |> reg 0 0x8000101 |> code false 0xE12FFF10)
    (fun t => t.cpsr == 0x3f && t.pc == 0x8000100 && t.cyclesOut == 14) = true := by
  decide

-- BR-06: SWI #0x12 in User mode; 44 R374; 60 R611.
theorem test_br_06 : after (base false [] |> psr 0x10 |> pc 0x8000008 |> code false 0xEF000012)
    (fun t => t.readBank .svc 14 == 0x800000c && t.spsrOf .svc == some 0x10 && t.cpsr == 0x93 && t.pc == 8 && t.cyclesOut == 8) = true := by
  decide

-- IRQ-01: IRQ taken before MOV R0, #1; 60 R612, R615; 70 R745.
theorem test_irq_01 : after (base false [] |> psr 0x1f |> pc 0x8000010 |> irqLine |> code false 0xE3A00001)
    (fun t => t.readBank .irq 14 == 0x8000014 && t.spsrOf .irq == some 0x1f && t.cpsr == 0x92 && t.pc == 0x18 && t.cyclesOut == 8) = true := by
  decide

-- IRQ-02: IRQ masked (I = 1): MOV R0, #1 runs; 60 R615.
theorem test_irq_02 : after (base false [] |> psr 0x9f |> irqLine |> code false 0xE3A00001)
    (fun t => t.readReg 0 == 1 && t.pc == 0x8000004 && t.cyclesOut == 6) = true := by
  decide

-- IRQ-03: IRQ taken in Thumb state; 60 R612.
theorem test_irq_03 : after (base true [] |> psr 0x3f |> pc 0x8000002 |> irqLine |> code true 0x2001)
    (fun t => t.readBank .irq 14 == 0x8000006 && t.spsrOf .irq == some 0x3f && t.cpsr == 0x92 && t.pc == 0x18 && t.cyclesOut == 5) = true := by
  decide

-- DEC-01: cond 011x ... xxx1 (undefined space); 30 R170 (a).
theorem test_dec_01 : stopsWith (base false [] |> code false 0xE7F000F0) (.decodeError 0xe7f000f0 0x7ff .arm) = true := by decide

-- DEC-02: LDRD-space halfword slot (L = 0, SH = 10); 30 R170 (c).
theorem test_dec_02 : stopsWith (base false [] |> code false 0xE1C000D0) (.decodeError 0xe1c000d0 0x1cd .arm) = true := by decide

-- DEC-09: Thumb 0xB100 (1011 0001); 30 R192.
theorem test_dec_09 : stopsWith (base true [] |> code true 0xB100) (.decodeError 0xb100 0xb1 .thumb) = true := by decide

-- DEC-10: Thumb 0xDE00 (B<cond> with cond 1110); 30 R192.
theorem test_dec_10 : stopsWith (base true [] |> code true 0xDE00) (.decodeError 0xde00 0xde .thumb) = true := by decide

-- DEC-11: Thumb 0xE800 (BLX suffix); 30 R192.
theorem test_dec_11 : stopsWith (base true [] |> code true 0xE800) (.decodeError 0xe800 0xe8 .thumb) = true := by decide

-- TA-01: LSL R0, R1, #2; 45 R401.
theorem test_ta_01 : after (base true [] |> reg 1 0x40000001 |> code true 0x0088)
    (fun t => t.readReg 0 == 4 && t.cpsr == 0x2000003f && t.pc == 0x8000002 && t.cyclesOut == 3) = true := by
  decide

-- TA-02: LSR R0, R1, #1; 45 R402.
theorem test_ta_02 : after (base true [] |> reg 1 1 |> code true 0x0848)
    (fun t => t.cpsr == 0x6000003f && t.pc == 0x8000002 && t.cyclesOut == 3) = true := by
  decide

-- TA-03: ASR R0, R1, #32 (encoded #0); 45 R403.
theorem test_ta_03 : after (base true [] |> reg 1 0x80000000 |> code true 0x1008)
    (fun t => t.readReg 0 == 0xffffffff && t.cpsr == 0xa000003f && t.pc == 0x8000002 && t.cyclesOut == 3) = true := by
  decide

-- TA-05: ADD R0, R1, R2; 45 R404.
theorem test_ta_05 : after (base true [] |> reg 1 1 |> reg 2 2 |> code true 0x1888)
    (fun t => t.readReg 0 == 3 && t.pc == 0x8000002 && t.cyclesOut == 3) = true := by
  decide

-- TA-06: SUB R0, R1, R2; 45 R405.
theorem test_ta_06 : after (base true [] |> reg 1 2 |> reg 2 2 |> code true 0x1A88)
    (fun t => t.cpsr == 0x6000003f && t.pc == 0x8000002 && t.cyclesOut == 3) = true := by
  decide

-- TA-07: ADD R0, R1, #3; 45 R406.
theorem test_ta_07 : after (base true [] |> reg 1 0xfffffffd |> code true 0x1CC8)
    (fun t => t.cpsr == 0x6000003f && t.pc == 0x8000002 && t.cyclesOut == 3) = true := by
  decide

-- TA-08: SUB R0, R1, #1; 45 R407.
theorem test_ta_08 : after (base true [] |> reg 1 0 |> code true 0x1E48)
    (fun t => t.readReg 0 == 0xffffffff && t.cpsr == 0x8000003f && t.pc == 0x8000002 && t.cyclesOut == 3) = true := by
  decide

-- TA-09: MOV R0, #0xFF; 45 R408.
theorem test_ta_09 : after (base true [] |> code true 0x20FF)
    (fun t => t.readReg 0 == 0xff && t.pc == 0x8000002 && t.cyclesOut == 3) = true := by
  decide

-- TA-10: CMP R0, #1; 45 R409.
theorem test_ta_10 : after (base true [] |> reg 0 0 |> code true 0x2801)
    (fun t => t.cpsr == 0x8000003f && t.pc == 0x8000002 && t.cyclesOut == 3) = true := by
  decide

-- TA-11: ADD R0, #1; 45 R410.
theorem test_ta_11 : after (base true [] |> reg 0 0x7fffffff |> code true 0x3001)
    (fun t => t.readReg 0 == 0x80000000 && t.cpsr == 0x9000003f && t.pc == 0x8000002 && t.cyclesOut == 3) = true := by
  decide

-- TA-12: SUB R0, #1; 45 R411.
theorem test_ta_12 : after (base true [] |> reg 0 1 |> code true 0x3801)
    (fun t => t.readReg 0 == 0 && t.cpsr == 0x6000003f && t.pc == 0x8000002 && t.cyclesOut == 3) = true := by
  decide

-- TA-13: AND R0, R1; 45 R412.
theorem test_ta_13 : after (base true [] |> reg 0 0xff00 |> reg 1 0xff0 |> code true 0x4008)
    (fun t => t.readReg 0 == 0xf00 && t.pc == 0x8000002 && t.cyclesOut == 3) = true := by
  decide

-- TA-14: EOR R0, R1; 45 R413.
theorem test_ta_14 : after (base true [] |> reg 0 0xff |> reg 1 0xff |> code true 0x4048)
    (fun t => t.readReg 0 == 0 && t.cpsr == 0x4000003f && t.pc == 0x8000002 && t.cyclesOut == 3) = true := by
  decide

-- TA-15: LSL R0, R1 (by 32); 45 R414.
theorem test_ta_15 : after (base true [] |> reg 0 1 |> reg 1 0x20 |> code true 0x4088)
    (fun t => t.readReg 0 == 0 && t.cpsr == 0x6000003f && t.pc == 0x8000002 && t.cyclesOut == 4) = true := by
  decide

-- TA-16: LSR R0, R1 (by 32); 45 R415.
theorem test_ta_16 : after (base true [] |> reg 0 0x80000000 |> reg 1 0x20 |> code true 0x40C8)
    (fun t => t.readReg 0 == 0 && t.cpsr == 0x6000003f && t.pc == 0x8000002 && t.cyclesOut == 4) = true := by
  decide

-- TA-17: ASR R0, R1 (by 40); 45 R416.
theorem test_ta_17 : after (base true [] |> reg 0 0x80000000 |> reg 1 0x28 |> code true 0x4108)
    (fun t => t.readReg 0 == 0xffffffff && t.cpsr == 0xa000003f && t.pc == 0x8000002 && t.cyclesOut == 4) = true := by
  decide

-- TA-18: ADC R0, R1; 45 R417.
theorem test_ta_18 : after (base true [] |> psr 0x2000003f |> reg 0 1 |> reg 1 1 |> code true 0x4148)
    (fun t => t.readReg 0 == 3 && t.cpsr == 0x3f && t.pc == 0x8000002 && t.cyclesOut == 3) = true := by
  decide

-- TA-19: SBC R0, R1; 45 R418.
theorem test_ta_19 : after (base true [] |> psr 0x2000003f |> reg 0 5 |> reg 1 3 |> code true 0x4188)
    (fun t => t.readReg 0 == 2 && t.pc == 0x8000002 && t.cyclesOut == 3) = true := by
  decide

-- TA-20: ROR R0, R1; 45 R419.
theorem test_ta_20 : after (base true [] |> reg 0 1 |> reg 1 1 |> code true 0x41C8)
    (fun t => t.readReg 0 == 0x80000000 && t.cpsr == 0xa000003f && t.pc == 0x8000002 && t.cyclesOut == 4) = true := by
  decide

-- TA-21: TST R0, R1; 45 R420.
theorem test_ta_21 : after (base true [] |> reg 0 0xf |> reg 1 0xf0 |> code true 0x4208)
    (fun t => t.cpsr == 0x4000003f && t.pc == 0x8000002 && t.cyclesOut == 3) = true := by
  decide

-- TA-22: NEG R0, R1; 45 R421.
theorem test_ta_22 : after (base true [] |> reg 1 5 |> code true 0x4248)
    (fun t => t.readReg 0 == 0xfffffffb && t.cpsr == 0x8000003f && t.pc == 0x8000002 && t.cyclesOut == 3) = true := by
  decide

-- TA-23: CMP R0, R1; 45 R422.
theorem test_ta_23 : after (base true [] |> reg 0 3 |> reg 1 5 |> code true 0x4288)
    (fun t => t.cpsr == 0x8000003f && t.pc == 0x8000002 && t.cyclesOut == 3) = true := by
  decide

-- TA-24: CMN R0, R1; 45 R423.
theorem test_ta_24 : after (base true [] |> reg 0 1 |> reg 1 0xffffffff |> code true 0x42C8)
    (fun t => t.cpsr == 0x6000003f && t.pc == 0x8000002 && t.cyclesOut == 3) = true := by
  decide

-- TA-25: ORR R0, R1; 45 R424.
theorem test_ta_25 : after (base true [] |> reg 0 0xf0 |> reg 1 0xf |> code true 0x4308)
    (fun t => t.readReg 0 == 0xff && t.pc == 0x8000002 && t.cyclesOut == 3) = true := by
  decide

-- TA-26: MUL R0, R1; 45 R425.
theorem test_ta_26 : after (base true [] |> reg 0 6 |> reg 1 7 |> code true 0x4348)
    (fun t => t.readReg 0 == 0x2a && t.pc == 0x8000002 && t.cyclesOut == 4) = true := by
  decide

-- TA-28: BIC R0, R1; 45 R426.
theorem test_ta_28 : after (base true [] |> reg 0 0xff |> reg 1 0xf |> code true 0x4388)
    (fun t => t.readReg 0 == 0xf0 && t.pc == 0x8000002 && t.cyclesOut == 3) = true := by
  decide

-- TA-29: MVN R0, R1; 45 R427.
theorem test_ta_29 : after (base true [] |> reg 1 0 |> code true 0x43C8)
    (fun t => t.readReg 0 == 0xffffffff && t.cpsr == 0x8000003f && t.pc == 0x8000002 && t.cyclesOut == 3) = true := by
  decide

-- TA-30: ADD R0, R8; 45 R428.
theorem test_ta_30 : after (base true [] |> reg 0 1 |> reg 8 2 |> code true 0x4440)
    (fun t => t.readReg 0 == 3 && t.pc == 0x8000002 && t.cyclesOut == 3) = true := by
  decide

-- TA-31: CMP R0, R8; 45 R429.
theorem test_ta_31 : after (base true [] |> reg 0 7 |> reg 8 7 |> code true 0x4540)
    (fun t => t.cpsr == 0x6000003f && t.pc == 0x8000002 && t.cyclesOut == 3) = true := by
  decide

-- TA-32: MOV R0, R8; 45 R430.
theorem test_ta_32 : after (base true [] |> reg 8 0x12345678 |> code true 0x4640)
    (fun t => t.readReg 0 == 0x12345678 && t.pc == 0x8000002 && t.cyclesOut == 3) = true := by
  decide

-- TA-35: BX LR (stays Thumb); 45 R431.
theorem test_ta_35 : after (base true [] |> reg 14 0x8000019 |> code true 0x4770)
    (fun t => t.pc == 0x8000018 && t.cyclesOut == 11) = true := by
  decide

-- TA-38: ADD R0, R1 with H1 = H2 = 0; 45 R440.
theorem test_ta_38 : stopsWith (base true [] |> reg 0 1 |> reg 1 2 |> code true 0x4408) (.unpredictable .thumbHiRegisters) = true := by
  decide

-- TM-01: LDR R0, [PC, #4] at 0x08000002; 46 R452.
theorem test_tm_01 : after (base true [] |> pc 0x8000002 |> word 0x8000008 0xa5a5a5a5 |> code true 0x4801)
    (fun t => t.readReg 0 == 0xa5a5a5a5 && t.pc == 0x8000004 && t.cyclesOut == 12) = true := by
  decide

-- TM-02: STR R0, [R1, R2]; 46 R453.
theorem test_tm_02 : after (base true [] |> reg 0 7 |> reg 1 0x3000000 |> reg 2 4 |> code true 0x5088)
    (fun t => t.pc == 0x8000002 && t.memRead32 0x03000004 == 7 && t.cyclesOut == 6) = true := by
  decide

-- TM-03: STRB R0, [R1, R2]; 46 R454.
theorem test_tm_03 : after (base true [] |> reg 0 0x1ab |> reg 1 0x3000000 |> reg 2 1 |> code true 0x5488)
    (fun t => t.pc == 0x8000002 && t.memRead32 0x03000000 == 0x1122ab44 && t.cyclesOut == 6) = true := by
  decide

-- TM-04: LDR R0, [R1, R2] (misaligned); 46 R455.
theorem test_tm_04 : after (base true [] |> reg 1 0x3000000 |> reg 2 2 |> code true 0x5888)
    (fun t => t.readReg 0 == 0x33441122 && t.pc == 0x8000002 && t.cyclesOut == 5) = true := by
  decide

-- TM-05: LDRB R0, [R1, R2]; 46 R456.
theorem test_tm_05 : after (base true [] |> reg 1 0x3000000 |> reg 2 3 |> code true 0x5C88)
    (fun t => t.readReg 0 == 0x11 && t.pc == 0x8000002 && t.cyclesOut == 5) = true := by
  decide

-- TM-06: STRH R0, [R1, R2]; 46 R457.
theorem test_tm_06 : after (base true [] |> reg 0 0xbeef |> reg 1 0x3000000 |> reg 2 0 |> code true 0x5288)
    (fun t => t.pc == 0x8000002 && t.memRead32 0x03000000 == 0x1122beef && t.cyclesOut == 6) = true := by
  decide

-- TM-07: LDSB R0, [R1, R2]; 46 R458.
theorem test_tm_07 : after (base true [] |> reg 1 0x3000000 |> reg 2 1 |> word 0x3000000 0x11228044 |> code true 0x5688)
    (fun t => t.readReg 0 == 0xffffff80 && t.pc == 0x8000002 && t.cyclesOut == 5) = true := by
  decide

-- TM-08: LDRH R0, [R1, R2]; 46 R459.
theorem test_tm_08 : after (base true [] |> reg 1 0x3000000 |> reg 2 2 |> code true 0x5A88)
    (fun t => t.readReg 0 == 0x1122 && t.pc == 0x8000002 && t.cyclesOut == 5) = true := by
  decide

-- TM-09: LDSH R0, [R1, R2]; 46 R460.
theorem test_tm_09 : after (base true [] |> reg 1 0x3000000 |> reg 2 2 |> word 0x3000000 0x80013344 |> code true 0x5E88)
    (fun t => t.readReg 0 == 0xffff8001 && t.pc == 0x8000002 && t.cyclesOut == 5) = true := by
  decide

-- TM-10: STR R0, [R1, #4]; 46 R461.
theorem test_tm_10 : after (base true [] |> reg 0 9 |> reg 1 0x3000000 |> code true 0x6048)
    (fun t => t.pc == 0x8000002 && t.memRead32 0x03000004 == 9 && t.cyclesOut == 6) = true := by
  decide

-- TM-11: LDR R0, [R1, #4]; 46 R462.
theorem test_tm_11 : after (base true [] |> reg 1 0x2fffffc |> code true 0x6848)
    (fun t => t.readReg 0 == 0x11223344 && t.pc == 0x8000002 && t.cyclesOut == 5) = true := by
  decide

-- TM-12: STRB R0, [R1, #1]; 46 R463.
theorem test_tm_12 : after (base true [] |> reg 0 0x55 |> reg 1 0x3000000 |> code true 0x7048)
    (fun t => t.pc == 0x8000002 && t.memRead32 0x03000000 == 0x11225544 && t.cyclesOut == 6) = true := by
  decide

-- TM-13: LDRB R0, [R1, #1]; 46 R464.
theorem test_tm_13 : after (base true [] |> reg 1 0x3000000 |> code true 0x7848)
    (fun t => t.readReg 0 == 0x33 && t.pc == 0x8000002 && t.cyclesOut == 5) = true := by
  decide

-- TM-14: STRH R0, [R1, #2]; 46 R465.
theorem test_tm_14 : after (base true [] |> reg 0 0xcafe |> reg 1 0x3000000 |> code true 0x8048)
    (fun t => t.pc == 0x8000002 && t.memRead32 0x03000000 == 0xcafe3344 && t.cyclesOut == 6) = true := by
  decide

-- TM-15: LDRH R0, [R1, #2]; 46 R466.
theorem test_tm_15 : after (base true [] |> reg 1 0x3000000 |> code true 0x8848)
    (fun t => t.readReg 0 == 0x1122 && t.pc == 0x8000002 && t.cyclesOut == 5) = true := by
  decide

-- TM-16: STR R0, [SP, #4]; 46 R467.
theorem test_tm_16 : after (base true [] |> reg 0 1 |> reg 13 0x3007f00 |> code true 0x9001)
    (fun t => t.pc == 0x8000002 && t.memRead32 0x03007f04 == 1 && t.cyclesOut == 6) = true := by
  decide

-- TM-17: LDR R0, [SP, #4]; 46 R468.
theorem test_tm_17 : after (base true [] |> reg 13 0x3007f00 |> word 0x3007f04 0x1234 |> code true 0x9801)
    (fun t => t.readReg 0 == 0x1234 && t.pc == 0x8000002 && t.cyclesOut == 5) = true := by
  decide

-- TM-18: ADD R0, PC, #4 at 0x08000002; 46 R469.
theorem test_tm_18 : after (base true [] |> pc 0x8000002 |> code true 0xA001)
    (fun t => t.readReg 0 == 0x8000008 && t.pc == 0x8000004 && t.cyclesOut == 3) = true := by
  decide

-- TM-19: ADD R0, SP, #4; 46 R470.
theorem test_tm_19 : after (base true [] |> reg 13 0x3007f00 |> code true 0xA801)
    (fun t => t.readReg 0 == 0x3007f04 && t.pc == 0x8000002 && t.cyclesOut == 3) = true := by
  decide

-- TM-20: ADD SP, #8; 46 R471.
theorem test_tm_20 : after (base true [] |> reg 13 0x3007f00 |> code true 0xB002)
    (fun t => t.readBank .usr 13 == 0x3007f08 && t.pc == 0x8000002 && t.cyclesOut == 3) = true := by
  decide

-- TM-21: SUB SP, #8; 46 R472.
theorem test_tm_21 : after (base true [] |> reg 13 0x3007f00 |> code true 0xB082)
    (fun t => t.readBank .usr 13 == 0x3007ef8 && t.pc == 0x8000002 && t.cyclesOut == 3) = true := by
  decide

-- TM-22: PUSH (R0, LR); 46 R473.
theorem test_tm_22 : after (base true [] |> reg 0 1 |> reg 13 0x3007f00 |> reg 14 0x8000005 |> code true 0xB501)
    (fun t => t.readBank .usr 13 == 0x3007ef8 && t.pc == 0x8000002 && t.memRead32 0x03007ef8 == 1 && t.memRead32 0x03007efc == 0x8000005 && t.cyclesOut == 7) = true := by
  decide

-- TM-23: POP (R0, PC); 46 R474.
theorem test_tm_23 : after (base true [] |> reg 13 0x3007ef8 |> word 0x3007ef8 1 |> word 0x3007efc 0x8000005 |> code true 0xBD01)
    (fun t => t.readReg 0 == 1 && t.readBank .usr 13 == 0x3007f00 && t.pc == 0x8000004 && t.cyclesOut == 14) = true := by
  decide

-- TM-25: STMIA R0!, (R1, R2); 46 R475.
theorem test_tm_25 : after (base true [] |> reg 0 0x3000000 |> reg 1 1 |> reg 2 2 |> code true 0xC006)
    (fun t => t.readReg 0 == 0x3000008 && t.pc == 0x8000002 && t.memRead32 0x03000000 == 1 && t.memRead32 0x03000004 == 2 && t.cyclesOut == 7) = true := by
  decide

-- TM-26: LDMIA R0!, (R1, R2); 46 R476.
theorem test_tm_26 : after (base true [] |> reg 0 0x3000000 |> word 0x3000004 0x55 |> code true 0xC806)
    (fun t => t.readReg 0 == 0x3000008 && t.readReg 1 == 0x11223344 && t.readReg 2 == 0x55 && t.pc == 0x8000002 && t.cyclesOut == 6) = true := by
  decide

-- TM-28: BNE -8 at 0x08000010, Z = 0; 46 R478.
theorem test_tm_28 : after (base true [] |> pc 0x8000010 |> code true 0xD1FC)
    (fun t => t.pc == 0x800000c && t.cyclesOut == 11) = true := by
  decide

-- TM-31: SWI #0x12 in System mode, Thumb; 46 R479; 60 R611.
theorem test_tm_31 : after (base true [] |> pc 0x8000100 |> code true 0xDF12)
    (fun t => t.readBank .svc 14 == 0x8000102 && t.spsrOf .svc == some 0x3f && t.cpsr == 0x93 && t.pc == 8 && t.cyclesOut == 5) = true := by
  decide

-- TM-32: B .; 46 R480.
theorem test_tm_32 : after (base true [] |> pc 0x8000014 |> code true 0xE7FE)
    (fun t => t.pc == 0x8000014 && t.cyclesOut == 11) = true := by
  decide

-- TM-34: BL first half 0xF000; 46 R486.
theorem test_tm_34 : after (base true [] |> code true 0xF000)
    (fun t => t.readBank .usr 14 == 0x8000004 && t.pc == 0x8000002 && t.cyclesOut == 3) = true := by
  decide

-- TM-35: BL second half 0xF87E after TM-34; 46 R487.
theorem test_tm_35 : after (base true [] |> pc 0x8000002 |> reg 14 0x8000004 |> code true 0xF87E)
    (fun t => t.readBank .usr 14 == 0x8000005 && t.pc == 0x8000100 && t.cyclesOut == 11) = true := by
  decide

/-! ## Forms without a vector

R1 = 0xF0F0, R2 = 0xFF, R3 = 4, and `R2, LSL R3` = `R2, LSL #4` = 0x0FF0 with carry-out 0; results by hand from R268 to R283. -/

def operands (flags : Word) : State := base false [] |> psr flags |> reg 1 0xF0F0 |> reg 2 0xFF |> reg 3 4

/-- The instruction leaves R0. -/
def gives (i : Instr) (flags v : Word) : Bool := runs i (operands flags) fun t => t.readReg 0 == v

/-- The instruction leaves the CPSR and R0 = 0. -/
def tests (i : Instr) (flags v : Word) : Bool := runs i (operands flags) fun t => t.cpsr == v && t.readReg 0 == 0

-- 0x3C as 0x0F ROR 30 (R238).
theorem test_and_imm : gives (.andImm .al false 1 0 15 0x0F) 0x1F 0x30 = true := by decide
theorem test_eor_imm : gives (.eorImm .al false 1 0 15 0x0F) 0x1F 0xF0CC = true := by decide
theorem test_adc_imm : gives (.adcImm .al false 1 0 0 0x10) 0x2000001F 0xF101 = true := by decide
theorem test_sbc_imm : gives (.sbcImm .al false 1 0 0 0x10) 0x1F 0xF0DF = true := by decide
theorem test_rsc_imm : gives (.rscImm .al false 1 0 0 0xF1) 0x1F 0xFFFF1000 = true := by decide
theorem test_teq_imm : tests (.teqImm .al 3 0 0 4) 0x1F 0x4000001F = true := by decide
theorem test_cmp_imm : tests (.cmpImm .al 3 0 0 5) 0x2000001F 0x8000001F = true := by decide
theorem test_rsb_shimm : gives (.rsbShimm .al false 1 0 4 .lsl 2) 0x1F 0xFFFF1F00 = true := by decide
theorem test_tst_shimm : tests (.tstShimm .al 1 0 31 .ror 2) 0x2000001F 0x0000001F = true := by decide
theorem test_cmn_shimm : tests (.cmnShimm .al 1 0 4 .lsl 2) 0xF000001F 0x0000001F = true := by decide
theorem test_orr_shimm : gives (.orrShimm .al false 1 0 4 .lsl 2) 0x1F 0xFFF0 = true := by decide
theorem test_bic_shimm : gives (.bicShimm .al false 1 0 4 .lsl 2) 0x1F 0xF000 = true := by decide
theorem test_mvn_shimm : gives (.mvnShimm .al false 0 0 4 .lsl 2) 0x1F 0xFFFFF00F = true := by decide
theorem test_and_shreg : gives (.andShreg .al false 1 0 3 .lsl 2) 0x1F 0x00F0 = true := by decide
theorem test_eor_shreg : gives (.eorShreg .al false 1 0 3 .lsl 2) 0x1F 0xFF00 = true := by decide
theorem test_sub_shreg : gives (.subShreg .al false 1 0 3 .lsl 2) 0x1F 0xE100 = true := by decide
theorem test_rsb_shreg : gives (.rsbShreg .al false 1 0 3 .lsl 2) 0x1F 0xFFFF1F00 = true := by decide
theorem test_adc_shreg : gives (.adcShreg .al false 1 0 3 .lsl 2) 0x2000001F 0x100E1 = true := by decide
theorem test_sbc_shreg : gives (.sbcShreg .al false 1 0 3 .lsl 2) 0x1F 0xE0FF = true := by decide
theorem test_rsc_shreg : gives (.rscShreg .al false 1 0 3 .lsl 2) 0x1F 0xFFFF1EFF = true := by decide
theorem test_tst_shreg : tests (.tstShreg .al 1 0 3 .lsl 2) 0xF000001F 0x1000001F = true := by decide
theorem test_teq_shreg : tests (.teqShreg .al 1 0 3 .lsl 2) 0xF000001F 0x1000001F = true := by decide
theorem test_cmp_shreg : tests (.cmpShreg .al 2 0 3 .lsl 2) 0x1F 0x8000001F = true := by decide
theorem test_cmn_shreg : tests (.cmnShreg .al 1 0 3 .lsl 2) 0xF000001F 0x0000001F = true := by decide
theorem test_orr_shreg : gives (.orrShreg .al false 1 0 3 .lsl 2) 0x1F 0xFFF0 = true := by decide
theorem test_bic_shreg : gives (.bicShreg .al false 1 0 3 .lsl 2) 0x1F 0xF000 = true := by decide
theorem test_mvn_shreg : gives (.mvnShreg .al false 0 0 3 .lsl 2) 0x1F 0xFFFFF00F = true := by decide

-- LDR PC, [PC], #4 on a core that is not strict ends at the written-back base (R249).
theorem test_ldr_pc_writeback : after (base false [] |> par { strictUnpredictable := false } |> code false 0xE49FF004)
    (fun t => t.pc == 0x0800000C) = true := by decide

-- Two checks fail, and the first of R344 and of R288 is reported (R605): STMIA R1!, {R0, R1}^ and MSR SPSR_fc, R15 in System mode.
theorem test_check_order :
    stopsWith (base false [] |> code false 0xE8E10003) (.unpredictable .userBankTransfer) = true ∧
      stopsWith (base false [] |> code false 0xE169F00F) .spsrUnavailable = true := by decide

/-- R1 = 0x03000010, R2 = 2, R3 = 0xA1B2C3D4, and the word 0x11228384 at 0x03000018. -/
def transfers : State :=
  base false [] |> reg 1 0x03000010 |> reg 2 2 |> reg 3 0xA1B2C3D4 |> word 0x03000018 0x11228384

theorem test_str_reg : runs (.strReg .al true true true 1 3 2 .lsl 2) transfers
    (fun t => t.memRead32 0x03000018 == 0xA1B2C3D4 && t.readReg 1 == 0x03000018) = true := by decide
theorem test_strt_reg : runs (.strtReg .al false 1 3 2 .lsl 2) transfers
    (fun t => t.memRead32 0x03000010 == 0xA1B2C3D4 && t.readReg 1 == 0x03000008) = true := by decide
theorem test_strb_reg : runs (.strbReg .al true true false 1 3 2 .lsl 2) transfers
    (fun t => t.memRead32 0x03000018 == 0x112283D4 && t.readReg 1 == 0x03000010) = true := by decide
theorem test_strbt_reg : runs (.strbtReg .al true 1 3 0 .lsl 2) transfers
    (fun t => t.memRead32 0x03000010 == 0x000000D4 && t.readReg 1 == 0x03000012) = true := by decide
theorem test_ldrt_reg : runs (.ldrtReg .al true 1 0 2 .lsl 2) (transfers |> reg 1 0x03000018)
    (fun t => t.readReg 0 == 0x11228384 && t.readReg 1 == 0x03000020) = true := by decide
theorem test_ldrb_reg : runs (.ldrbReg .al true true false 1 0 2 .lsl 2) transfers
    (fun t => t.readReg 0 == 0x84) = true := by decide
theorem test_ldrbt_reg : runs (.ldrbtReg .al false 1 0 0 .lsl 2) (transfers |> reg 1 0x03000019)
    (fun t => t.readReg 0 == 0x83 && t.readReg 1 == 0x03000017) = true := by decide
theorem test_strh_reg : runs (.strhReg .al true true false 1 3 2) (transfers |> reg 2 8)
    (fun t => t.memRead32 0x03000018 == 0x1122C3D4) = true := by decide
theorem test_ldrsb_reg : runs (.ldrsbReg .al true true false 1 0 2) (transfers |> reg 2 8)
    (fun t => t.readReg 0 == 0xFFFFFF84) = true := by decide
theorem test_ldrsh_reg : runs (.ldrshReg .al true true true 1 0 2) (transfers |> reg 2 8)
    (fun t => t.readReg 0 == 0xFFFF8384 && t.readReg 1 == 0x03000018) = true := by decide

-- R747, with pc = 0x03000000 in IWRAM and EWRAM mapped (95_test_vectors.md section 3.11).
theorem test_timing_iwram_mov : after (base false [] |> pc 0x03000000 |> code false 0xE3A00000) (·.cyclesOut == 1) = true := by decide
theorem test_timing_iwram_b : after (base false [] |> pc 0x03000000 |> code false 0xEAFFFFFE) (·.cyclesOut == 3) = true := by decide
theorem test_timing_iwram_ldr :
    after (base false [0x2000] |> pc 0x03000000 |> reg 1 0x02000000 |> code false 0xE5910000) (·.cyclesOut == 8) = true := by decide
theorem test_timing_rom_b : after (base false [] |> code false 0xEAFFFFFE) (·.cyclesOut == 20) = true := by decide
theorem test_timing_thumb_iwram_b : after (base true [] |> pc 0x03000000 |> code true 0xE7FE) (·.cyclesOut == 3) = true := by decide
theorem test_timing_thumb_rom_b : after (base true [] |> code true 0xE7FE) (·.cyclesOut == 11) = true := by decide

-- R605, R613: with both lines asserted and unmasked, FIQ first; R612: the link is the pc + 4.
theorem test_fiq_before_irq :
    after ({ base false [] with config := { fiqPresent := true }, env := [{ irq := true, fiq := true }] })
      (fun t => t.pc == 0x1C && t.mode == .fiq && t.readReg 14 == 0x08000004 && t.spsrFiq == 0x1F) = true := by decide

-- R106, R118, R150: a step after reset runs the placed instruction, in each set.
theorem test_withFetchWord_arm : after (State.reset.withFetchWord 32 0xE3A00001) (fun t => t.readReg 0 == 1 && t.pc == 4) = true := by
  decide
theorem test_withFetchWord_thumb : after (State.reset.withFetchWord 16 0x2001) (fun t => t.readReg 0 == 1 && t.pc == 2) = true := by
  decide
theorem test_decodeTableWord :
    decodeTableWord 32 0xE3A00001 = some (.movImm .al false 0 0 0 1) ∧ decodeTableWord 16 0x2001 = some (.tMovImm 0 1) ∧
      decodeTableWord 32 0xEE000000 = none ∧ decodeTableWord 16 0xDE00 = none := by decide

/-! ## Well-formedness: each check refuses an ill-formed term -/

theorem test_wf_refuses_word_and_byte_postindexed_writeback :
    ∀ i ∈ [Instr.strImm .al false true true 1 0 4, .strReg .al false true true 1 0 0 .lsl 2, .ldrImm .al false true true 1 0 4,
      .ldrReg .al false true true 1 0 0 .lsl 2, .strbImm .al false true true 1 0 4, .strbReg .al false true true 1 0 0 .lsl 2,
      .ldrbImm .al false true true 1 0 4, .ldrbReg .al false true true 1 0 0 .lsl 2], i.wf = false := by decide

theorem test_wf_refuses_halfword_postindexed_writeback :
    ∀ i ∈ [Instr.strhImm .al false true true 1 0 4, .strhReg .al false true true 1 0 2, .ldrhImm .al false true true 1 0 4,
      .ldrhReg .al false true true 1 0 2, .ldrsbImm .al false true true 1 0 4, .ldrsbReg .al false true true 1 0 2,
      .ldrshImm .al false true true 1 0 4, .ldrshReg .al false true true 1 0 2], i.wf = false := by decide

theorem test_wf_refuses_thumb_branch_conditions : (Instr.tBcond .al 0).wf = false ∧ (Instr.tBcond .nv 0).wf = false := by decide

/-! ## Witnesses: states and operands that meet the hypotheses of each statement -/

/-- Reset with parameters. -/
def resetWithConfig (c : Config) : State := { State.reset with config := c }

/-- Not strict, and an empty list moves R15 (R14, R346). -/
def lax : State := resetWithConfig { strictUnpredictable := false, emptyRlist := .arm7 }

/-- User mode. -/
def user : State := { State.reset with cpsr := 0x10 }

/-- Supervisor mode with an SPSR of System mode, Thumb. -/
def saved : State := { State.reset with spsrSvc := 0x8000003F }

def thumbReset : State := { State.reset with cpsr := 0xF3 }

theorem test_witness_DecodeEncodeArm : (Instr.ldrtImm .nv true 15 15 0xFFF#12).wf = true ∧ (Instr.ldrtImm .nv true 15 15 0xFFF#12).isa = .arm := by
  decide

theorem test_witness_DecodeEncodeThumb : (Instr.tBcond .le 0xFF#8).wf = true ∧ (Instr.tBcond .le 0xFF#8).isa = .thumb := by decide

theorem test_witness_DecodedWellFormed : decode (.arm 0xE0110002#32) = .instr (.andShimm .al true 1 0 0 .lsl 2) := by decide

-- R170 (a) to (g), one word each, with a neighbour that is defined.
theorem test_witness_ArmUndefinedWords_undefined :
    decode (.arm 0xE7000010#32) = .undefined 0xE7000010#32 0x701#12 .arm ∧ decode (.arm 0xE1800090#32) = .undefined 0xE1800090#32 0x189#12 .arm ∧
    decode (.arm 0xE0400090#32) = .undefined 0xE0400090#32 0x049#12 .arm ∧ decode (.arm 0xE1C000D0#32) = .undefined 0xE1C000D0#32 0x1CD#12 .arm ∧
    decode (.arm 0xE03000B0#32) = .undefined 0xE03000B0#32 0x03B#12 .arm ∧ decode (.arm 0xE1200070#32) = .undefined 0xE1200070#32 0x127#12 .arm ∧
    decode (.arm 0xE1600010#32) = .undefined 0xE1600010#32 0x161#12 .arm ∧ decode (.arm 0xE3000000#32) = .undefined 0xE3000000#32 0x300#12 .arm ∧
    decode (.arm 0xEC000000#32) = .undefined 0xEC000000#32 0xC00#12 .arm ∧ decode (.arm 0xEEFFFFFF#32) = .undefined 0xEEFFFFFF#32 0xEFF#12 .arm := by
  decide

theorem test_witness_ArmUndefinedWords_defined :
    decode (.arm 0xE7000000#32) = .instr (.strReg .al true false false 0 0 0 .lsl 0) ∧
    decode (.arm 0xE1400090#32) = .instr (.swpb .al 0 0 0) ∧ decode (.arm 0xE0300090#32) = .instr (.mla .al true 0 0 0 0) ∧
    decode (.arm 0xE12FFF1E#32) = .instr (.bx .al 14) ∧ decode (.arm 0xEF000000#32) = .instr (.swi .al 0) ∧
    decode (.arm 0xE3200000#32) = .instr (.msrImm .al false ⟨false, false, false, false⟩ 0 0) := by
  decide

-- R192 at both ends of each range.
theorem test_witness_ThumbUndefinedHalfwords_undefined :
    decode (.thumb 0xB100#16) = .undefined 0xB100#32 0xB1#12 .thumb ∧ decode (.thumb 0xB3FF#16) = .undefined 0xB3FF#32 0xB3#12 .thumb ∧
    decode (.thumb 0xB600#16) = .undefined 0xB600#32 0xB6#12 .thumb ∧ decode (.thumb 0xBBFF#16) = .undefined 0xBBFF#32 0xBB#12 .thumb ∧
    decode (.thumb 0xBE00#16) = .undefined 0xBE00#32 0xBE#12 .thumb ∧ decode (.thumb 0xBFFF#16) = .undefined 0xBFFF#32 0xBF#12 .thumb ∧
    decode (.thumb 0xDE00#16) = .undefined 0xDE00#32 0xDE#12 .thumb ∧ decode (.thumb 0xDEFF#16) = .undefined 0xDEFF#32 0xDE#12 .thumb ∧
    decode (.thumb 0xE800#16) = .undefined 0xE800#32 0xE8#12 .thumb ∧ decode (.thumb 0xEFFF#16) = .undefined 0xEFFF#32 0xEF#12 .thumb := by
  decide

theorem test_witness_ThumbUndefinedHalfwords_defined :
    decode (.thumb 0xB0FF#16) = .instr (.tSubSpImm 0x7F) ∧ decode (.thumb 0xB400#16) = .instr (.tPush false 0) ∧
    decode (.thumb 0xB5FF#16) = .instr (.tPush true 0xFF) ∧ decode (.thumb 0xBC00#16) = .instr (.tPop false 0) ∧
    decode (.thumb 0xBDFF#16) = .instr (.tPop true 0xFF) ∧ decode (.thumb 0xC000#16) = .instr (.tStmia 0 0) ∧
    decode (.thumb 0xDDFF#16) = .instr (.tBcond .le 0xFF) ∧ decode (.thumb 0xDF00#16) = .instr (.tSwi 0) ∧
    decode (.thumb 0xE7FF#16) = .instr (.tB 0x7FF) ∧ decode (.thumb 0xF000#16) = .instr (.tBlHi 0) := by
  decide

theorem test_witness_StepRunsDecoded :
    let s := State.reset.withFetchWord 32 0xE3A00001
    NoInterrupt s ∧ s.alignPc s.pc = s.pc ∧ CodeAtPc s (.arm 0xE3A00001) ∧
      decodeBytes .arm (Code.arm 0xE3A00001).bytes = some (.instr (.movImm .al false 0 0 0 1), []) := by
  unfold NoInterrupt CodeAtPc; decide

theorem test_witness_StepStopsUndefined :
    let s := thumbReset.withFetchWord 16 0xDE00
    NoInterrupt s ∧ s.alignPc s.pc = s.pc ∧ CodeAtPc s (.thumb 0xDE00) ∧
      decodeBytes .thumb (Code.thumb 0xDE00).bytes = some (.undefined 0xDE00 0xDE .thumb, []) := by
  unfold NoInterrupt CodeAtPc; decide

theorem test_witness_InterruptEntry_fiq :
    let s := { user with config := { fiqPresent := true }, env := [{ irq := true, fiq := true }] }
    s.config.fiqPresent = true ∧ (s.env.headD {}).fiq = true ∧ psrF s.cpsr = false := by decide

theorem test_witness_InterruptEntry_irq :
    let s := { user with env := [{ irq := true, fiq := true }] }
    s.config.fiqPresent = false ∧ (s.env.headD {}).irq = true ∧ psrI s.cpsr = false := by decide

theorem test_witness_InterruptEntry_none :
    let s := { State.reset with env := [{ irq := true, fiq := true }] }
    s.config.fiqPresent = false ∧ psrI s.cpsr = true := by decide

theorem test_witness_ConditionFails :
    condOf (.movImm .nv false 0 0 0 1) = .nv ∧ (resetWithConfig { nvCond := .fault }).config.nvCond = .fault ∧
      State.reset.config.nvCond = .never ∧ State.reset.condPasses .nv = false ∧ State.reset.condPasses .eq = false := by decide

theorem test_witness_ShifterImmediate : 0 < (1#5).toNat ∧ 0 < (31#5).toNat ∧ (31 : Nat) < 32 := by decide

-- The amounts where the clauses of R231 to R235 meet.
theorem test_witness_ShifterRegister :
    (0#8).toNat = 0 ∧ (0 < (1#8).toNat ∧ (31#8).toNat < 32) ∧ (32#8).toNat = 32 ∧ 32 < (33#8).toNat ∧ 32 ≤ (255#8).toNat ∧
      (64#8).toNat % 32 = 0 ∧ (33#8).toNat % 32 ≠ 0 ∧ (255#8).toNat % 32 ≠ 0 := by decide

theorem test_shifter_boundaries :
    shiftImm .lsl 31 0x80000003 false = ⟨0x80000000, true⟩ ∧ shiftImm .ror 1 1 false = ⟨0x80000000, true⟩ ∧
    shiftReg .ror 33 0x80000001 false = ⟨0xC0000000, true⟩ ∧ shiftReg .asr 255 0x80000000 false = ⟨0xFFFFFFFF, true⟩ ∧
    shiftReg .lsl 33 0xFFFFFFFF true = ⟨0, false⟩ := by decide

theorem test_witness_DataProcessingImmediate :
    State.reset.condPasses .al = true ∧ isTest .cmp = true ∧ isTest .add = false ∧ (14 : Reg) ≠ 15 := by decide

theorem test_witness_DataProcessingShift :
    user.condPasses .pl = true ∧ isTest .mov = false ∧ (0 : Reg) ≠ 15 := by decide

theorem test_witness_DataProcessingRegisterShift :
    State.reset.condPasses .al = true ∧ isTest .add = false ∧ (14 : Reg) ≠ 15 ∧ Allowed State.reset (decide ((14 : Reg) = 15)) ∧
      Allowed lax (decide ((15 : Reg) = 15)) := by
  unfold Allowed; decide

theorem test_witness_ExceptionReturn :
    saved.condPasses .al = true ∧ isTest .mov = false ∧ saved.spsr = some 0x8000003F ∧
      (Mode.ofBits? ((0x8000003F#32).extractLsb' 0 5)).isSome = true ∧
      State.reset.spsr = some 0 ∧ Mode.ofBits? ((0#32).extractLsb' 0 5) = none ∧ Allowed saved (decide ((14 : Reg) = 15)) := by
  unfold Allowed; decide

theorem test_exception_return :
    runs (.movShimm .al true 0 15 0 .lsl 14) (saved |> reg 14 0x08000103)
      (fun t => t.cpsr == 0x8000003F && t.pc == 0x08000102) = true := by decide

theorem test_witness_MoveFromStatus :
    saved.condPasses .al = true ∧ Allowed saved (decide ((14 : Reg) = 15)) ∧ Allowed lax (decide ((15 : Reg) = 15)) ∧
      saved.spsr = some 0x8000003F := by
  unfold Allowed; decide

theorem test_witness_MoveToCpsr :
    State.reset.condPasses .al = true ∧ Allowed State.reset (decide ((0 : Reg) = 15)) ∧
      Mode.ofBits? ((0x00#32).extractLsb' 0 5) = none ∧ (Mode.ofBits? ((0x10#32).extractLsb' 0 5)).isSome = true ∧
      Mode.ofBits? ((0x14#32).extractLsb' 0 5) = none ∧ (Mode.ofBits? (user.cpsr.extractLsb' 0 5)).isSome = true := by
  unfold Allowed; decide

theorem test_witness_MoveToSpsr :
    saved.condPasses .al = true ∧ saved.spsr = some 0x8000003F ∧ Allowed saved (decide ((0 : Reg) = 15)) ∧ Mode.usr ≠ saved.mode := by
  unfold Allowed; decide

theorem test_witness_SpsrUnavailableInUserAndSystem :
    user.condPasses .al = true ∧ user.mode = .usr ∧ (base false []).mode = .sys ∧ Allowed user (decide ((0 : Reg) = 15)) ∧
      isTest .mvn = false ∧ (0x8000#16).getLsbD 15 = true := by
  unfold Allowed; decide

theorem test_witness_Multiply32 :
    State.reset.condPasses .al = true ∧
      Allowed State.reset ((0 : Reg) = 1 || (0 : Reg) = 15 || (1 : Reg) = 15 || (2 : Reg) = 15 || (0 : Reg) = 15) ∧
      Allowed lax ((15 : Reg) = 15 || (15 : Reg) = 15 || (15 : Reg) = 15 || (15 : Reg) = 15 || (15 : Reg) = 15) := by
  unfold Allowed; decide

theorem test_witness_Multiply64 :
    State.reset.condPasses .al = true ∧
      Allowed State.reset ((0 : Reg) = 1 || (0 : Reg) = 2 || (1 : Reg) = 2 || (0 : Reg) = 15 || (1 : Reg) = 15 || (2 : Reg) = 15 ||
        (3 : Reg) = 15) ∧
      Allowed lax ((15 : Reg) = 15 || (15 : Reg) = 15 || (15 : Reg) = 15 || (15 : Reg) = 15 || (15 : Reg) = 15 || (15 : Reg) = 15 ||
        (15 : Reg) = 15) := by
  unfold Allowed; decide

theorem test_witness_SingleLoads :
    State.reset.condPasses .al = true ∧ Allowed State.reset ((!true || true) && decide ((14 : Reg) = 15)) ∧
      Allowed State.reset (true && decide ((0 : Reg) = 15)) ∧ Allowed State.reset (decide ((14 : Reg) = 15)) ∧
      Allowed lax (true && decide ((15 : Reg) = 15)) ∧ Allowed lax (decide ((15 : Reg) = 15)) := by
  unfold Allowed; decide

-- A store may end just before the slots, at 4, and begin just after them, at 12 (R720).
theorem test_witness_SingleStores :
    let strict := resetWithConfig { prefetchHazard := .fault }
    strict.condPasses .al = true ∧ Allowed strict ((!true || true) && decide ((14 : Reg) = 15)) ∧
      Allowed strict (decide ((0 : Reg) = 15)) ∧ StoreAllowed .word true true 0 3 strict ∧ StoreAllowed .byte true true 0 3 strict ∧
      StoreAllowed .word false true 0 0xFFF (strict |> reg 0 0x0C) ∧ StoreAllowed .byte false false 0 4 (strict |> reg 0 0x0C) ∧
      Allowed lax (true && decide ((15 : Reg) = 15)) := by
  unfold Allowed StoreAllowed NoHazard; decide

theorem test_witness_HalfwordLoads :
    State.reset.condPasses .al = true ∧ Allowed State.reset ((!true || false) && decide ((15 : Reg) = 15)) ∧
      Allowed State.reset (decide ((14 : Reg) = 15)) ∧ (1#32).getLsbD 0 = true ∧
      (resetWithConfig { misalignedHalf := .arm7 }).config.misalignedHalf = .arm7 ∧ State.reset.config.misalignedHalf = .ror16 := by
  unfold Allowed; decide

theorem test_witness_HalfwordStores :
    let strict := resetWithConfig { prefetchHazard := .fault }
    strict.condPasses .al = true ∧ Allowed strict ((!false || false) && decide ((0 : Reg) = 15)) ∧
      Allowed strict (decide ((14 : Reg) = 15)) ∧ StoreAllowed .half true true 0 3 strict ∧
      StoreAllowed .half true true 0 12 strict := by
  unfold Allowed StoreAllowed NoHazard; decide

theorem test_witness_BlockLoads :
    lax.condPasses .al = true ∧ lax.config.emptyRlist = .arm7 ∧ Allowed State.reset (decide ((14 : Reg) = 15)) ∧
      (15 : Reg) ∉ (blockRegs 0x7FFF#16).1 ∧ (15 : Reg) ∈ (blockRegs 0#16).1 ∧
      Allowed State.reset (true && (State.reset.mode == .usr || State.reset.mode == .sys || false)) := by
  unfold Allowed; decide

theorem test_witness_BlockLoadReturns :
    saved.condPasses .al = true ∧ (15 : Reg) ∈ (blockRegs 0x8000#16).1 ∧ saved.spsr = some 0x8000003F ∧
      (Mode.ofBits? ((0x8000003F#32).extractLsb' 0 5)).isSome = true ∧ State.reset.spsr = some 0 ∧
      Mode.ofBits? ((0#32).extractLsb' 0 5) = none ∧ Allowed saved (decide ((14 : Reg) = 15)) := by
  unfold Allowed; decide

theorem test_witness_BlockStores :
    State.reset.condPasses .al = true ∧ Allowed State.reset (decide ((14 : Reg) = 15)) ∧ Allowed State.reset (baseNotLowest true 0 3) ∧
      baseNotLowest true 1 3 = true ∧ Allowed lax (baseNotLowest true 1 3) ∧
      Allowed State.reset (false && (State.reset.mode == .usr || State.reset.mode == .sys || true)) ∧
      BlockStoreAllowed true false 13 0xFFFF State.reset := by
  unfold Allowed BlockStoreAllowed NoHazard; decide

theorem test_witness_Swaps :
    State.reset.condPasses .al = true ∧
      Allowed State.reset ((0 : Reg) = 15 || (1 : Reg) = 15 || (2 : Reg) = 15 || (2 : Reg) = 0 || (2 : Reg) = 1) ∧
      NoHazard State.reset 0 4 ∧ NoHazard (resetWithConfig { prefetchHazard := .fault }) 12 1 := by
  unfold Allowed NoHazard; decide

theorem test_witness_ArmBranches :
    State.reset.condPasses .al = true ∧ State.reset.thumb = false ∧ State.reset.alignPc State.reset.pc = State.reset.pc := by decide

theorem test_witness_BranchExchanges :
    State.reset.condPasses .al = true ∧ Allowed thumbReset false ∧ Allowed lax true := by
  unfold Allowed; decide

theorem test_witness_SoftwareInterrupts :
    State.reset.condPasses .al = true ∧ State.reset.thumb = false ∧ thumbReset.thumb = true := by decide

theorem test_witness_ThumbBranches :
    thumbReset.thumb = true ∧ thumbReset.alignPc thumbReset.pc = thumbReset.pc ∧ thumbReset.condPasses .ne = true := by decide

theorem test_witness_ThumbLogical :
    Allowed thumbReset (decide ((0 : LoReg) = 1)) ∧ Allowed lax (decide ((7 : LoReg) = 7)) := by
  unfold Allowed; decide

theorem test_witness_ThumbHighRegisters : Allowed thumbReset (!true && !false) ∧ Allowed lax (!false && !false) := by
  unfold Allowed; decide

theorem test_witness_ThumbStores :
    NoHazard thumbReset (alignTo .w32 3) 4 ∧ NoHazard { thumbReset with config := { prefetchHazard := .fault } } (alignTo .w8 1) 1 ∧
      NoHazard { thumbReset with config := { prefetchHazard := .fault } } (alignTo .w16 7) 2 := by
  unfold NoHazard; decide

theorem test_witness_ThumbBlocks :
    ((0x40FF#16 = 0) → thumbReset.config.emptyRlist = .arm7) ∧ ((0#16 = 0) → lax.config.emptyRlist = .arm7) ∧
      Allowed thumbReset (baseNotLowest true (lo 0) 0xFF) ∧ BlockStoreAllowed true false 13 0x40FF thumbReset ∧
      BlockStoreAllowed false true (lo 7) 0x80 thumbReset := by
  unfold Allowed BlockStoreAllowed NoHazard; decide

theorem test_reset_wellFormed : State.reset.WellFormed := by
  constructor <;> decide

/-- An instruction that stores the word at 4 and writes its base back. -/
def framed : Instr := .strImm .al true true true 1 0 4

theorem test_witness_FrameRegisters :
    runs framed State.reset (fun _ => true) = true ∧ PhysReg.usr 0 ≠ .pc ∧ PhysReg.usr 0 ∉ (effects framed State.reset).regs := by decide

theorem test_witness_FrameStatus :
    State.reset.WellFormed ∧ runs framed State.reset (fun _ => true) = true ∧ (effects framed State.reset).flags = 0 ∧
      (effects framed State.reset).control = false ∧ (effects framed State.reset).spsr = false :=
  ⟨test_reset_wellFormed, by decide, by decide, by decide, by decide⟩

theorem test_witness_FrameMemory :
    runs framed State.reset (fun _ => true) = true ∧ Effects.spares (effects framed State.reset) 3 ∧
      Effects.spares (effects framed State.reset) 8 ∧ Effects.spares (effects framed State.reset) 0x04000204 ∧
      Effects.spares (effects framed State.reset) 0x04000205 := by
  unfold Effects.spares; decide

theorem test_witness_MemoryReadsBack :
    (∀ k : Nat, k < 4 → State.reset.mem.mapped (0xFFFFFFFC#32 + BitVec.ofNat 32 k) = true) ∧
      State.reset.mem.mapped 0xFFFFFFFF#32 = true ∧ (base false []).mem.mapped 0x03008000#32 = false := by decide

theorem test_witness_WaitControlWrites :
    State.reset.waitcnt &&& 0xA000#16 = 0 ∧ 0x04000207#32 &&& 0xFFFFFFFC#32 = 0x04000204#32 ∧ 0x04000206#32 &&& 0xFFFFFFFE#32 ≠ 0x04000204#32 ∧
      0x04000203#32 &&& 0xFFFFFFFC#32 ≠ 0x04000204#32 := by decide

theorem test_witness_StepKeepsInvariant :
    State.reset.Inv ∧ after (State.reset.withFetchWord 32 0xE3A00001) (fun _ => true) = true := by
  refine ⟨⟨test_reset_wellFormed, ?_⟩, ?_⟩ <;> decide

theorem test_witness_ResetMeetsInvariant : Memory.reset.wf = true ∧ (base false []).mem.wf = true := by decide

theorem test_witness_ResetValues : (0 : Reg) ≠ 13 ∧ (14 : Reg) ≠ 15 := by decide

theorem test_user_wellFormed : user.WellFormed := by
  constructor <;> decide

theorem test_witness_UserModeLeftOnlyByException :
    user.WellFormed ∧ user.mode = .usr ∧ runs (.msrImm .al false ⟨true, true, true, true⟩ 0 0) user (fun _ => true) = true :=
  ⟨test_user_wellFormed, by decide, by decide⟩

theorem test_witness_TimingIsUnobservable :
    SameButTiming State.reset
      { State.reset with cycles := 5, config := { waitTable := [⟨.bios, .w32, .S, 0, 9⟩], condFailCycles := .oneS } } := by
  unfold SameButTiming; decide

theorem test_witness_ExceptionRoundTrip :
    State.reset.WellFormed ∧ State.reset.condPasses .al = true ∧ State.reset.thumb = false ∧ thumbReset.thumb = true ∧
      runs (.swi .al 0) State.reset (fun _ => true) = true ∧ runs (.tSwi 0) thumbReset (fun _ => true) = true :=
  ⟨test_reset_wellFormed, by decide, by decide, by decide, by decide, by decide⟩

theorem test_witness_ExceptionRoundTrip_interrupt :
    ¬ NoInterrupt (user |> irqLine) ∧ after (user |> irqLine) (·.mode == .irq) = true := by
  unfold NoInterrupt; decide

theorem test_witness_StrictStops :
    State.reset.condPasses .al = true ∧ State.reset.config.strictUnpredictable = true ∧ baseNotLowest true 1 3 = true ∧
      baseNotLowest true (lo 7) (BitVec.zeroExtend 16 0xFF#8) = true ∧ baseNotLowest true 15 0x8000 = false ∧
      (15 : Reg) ∉ (blockRegs 0x7FFF).1 ∧ (15 : Reg) ∈ (blockRegs 0x8000).1 ∧ (0x7FFF#16 = 0 → State.reset.config.emptyRlist = .arm7) ∧
      user.mode = .usr ∧ (base false []).mode = .sys ∧ (State.reset.mode ≠ .usr ∧ State.reset.mode ≠ .sys) ∧
      State.reset.spsr.isSome = true ∧ (saved.config.strictUnpredictable = true ∧ saved.spsr = some 0x8000003F ∧
        (Mode.ofBits? ((0x8000003F#32).extractLsb' 0 5)).isSome = true) := by decide

-- The slots after the store at 0 are the bytes 4 to 11; a transfer meets them with its last byte at 4 and with its first at 11 (R720).
theorem test_witness_EmptyListAndHazardStops :
    let s := resetWithConfig { prefetchHazard := .fault } |> reg 1 4 |> reg 2 0x0B |> reg 13 0x08 |> reg 3 0xFFFFFFF8
    let slot := fun (a : Word) (j : Nat) => s.ilen.toNat ≤ (a + BitVec.ofNat 32 j - s.pc).toNat ∧
      (a + BitVec.ofNat 32 j - s.pc).toNat < 3 * s.ilen.toNat
    s.condPasses .al = true ∧ State.reset.config.emptyRlist = .fault ∧ s.config.prefetchHazard = .fault ∧
      Allowed s ((!true || true) && decide ((1 : Reg) = 15)) ∧ Allowed s (decide ((14 : Reg) = 15)) ∧
      slot (alignTo .w32 (transferAddr true true 1 0 s)) 0 ∧ slot (alignTo .w32 (transferAddr true true 1 7 s)) 3 ∧
      slot (alignTo .w8 (transferAddr false false 2 1 s)) 0 ∧ slot (alignTo .w16 (transferAddr true true 2 0 s)) 1 ∧
      Allowed s ((4 : Reg) = 15 || (5 : Reg) = 15 || (1 : Reg) = 15 || (1 : Reg) = 4 || (1 : Reg) = 5) ∧
      Allowed s (baseNotLowest true 13 0x4001) ∧ Allowed s (false && (s.mode == .usr || s.mode == .sys || true)) ∧
      slot (blockWord (blockTable true false (s.readReg 13) 1).1 0) 0 ∧
      -- the fourth word of an STMIA from below address 0 wraps to 4
      slot (blockWord (blockTable false true (s.readReg 3) 4).1 3) 0 := by
  unfold Allowed; decide

/-- The cycles an instruction adds to the clock, less those `charges` names. -/
def chargedBeyond (i : Instr) (s : State) : Option Word :=
  match exec i s with
  | .next t => some (t.cycles - s.cycles - (charges i s).cycles - if (charges i s).refill then refillCost t else 0)
  | _ => none

-- A block store that covers the wait-state register, and a branch; an IRQ from ROM pays 6 there (R747) and 2 at the vector (R131).
theorem test_witness_InstructionTiming :
    chargedBeyond (.stmia .al false true 0 6) (base false [] |> reg 0 0x04000204 |> reg 1 0x4317) = some 0 ∧
      chargedBeyond (.b .al 5) (base false []) = some 0 ∧ (base false []).condPasses (condOf (.b .al 5)) = true ∧
      (¬ NoInterrupt (base false [] |> irqLine) ∧ after (base false [] |> irqLine) (fun t => t.cyclesOut == 8) = true) := by
  unfold NoInterrupt; decide

end Sys2Proof.Tests
end

/-! What the readers and writers of the SPSR do in a mode that has none (R62), and the equations of `exec` for the families that
return from an exception. -/

namespace Sys2Proof.Machine

/-! ## The families behind `exec` -/

/-- An immediate data-processing instruction runs the common rule, a test with S set (R267). -/
theorem exec_dpImm (op : AluOp) (cond : Cond) (sf : Bool) (rn rd : Reg) (rotate : BitVec 4) (imm : BitVec 8) (s : State) :
    exec (dpImm op cond sf rn rd rotate imm) s = conditional cond s (dataProcImm op (isTest op || sf) rn rd rotate imm s) := by
  cases op <;> rfl

/-- A data-processing instruction with an immediate shift runs the common rule, a test with S set (R267). -/
theorem exec_dpShimm (op : AluOp) (cond : Cond) (sf : Bool) (rn rd : Reg) (amount : BitVec 5) (ty : ShiftType) (rm : Reg)
    (s : State) :
    exec (dpShimm op cond sf rn rd amount ty rm) s =
      conditional cond s (dataProcShimm op (isTest op || sf) rn rd amount ty rm s) := by
  cases op <;> rfl

/-- A data-processing instruction with a register shift runs the common rule, a test with S set (R267). -/
theorem exec_dpShreg (op : AluOp) (cond : Cond) (sf : Bool) (rn rd rs : Reg) (ty : ShiftType) (rm : Reg) (s : State) :
    exec (dpShreg op cond sf rn rd rs ty rm) s =
      conditional cond s (dataProcShreg op (isTest op || sf) rn rd rs ty rm s) := by
  cases op <;> rfl

/-- The four LDM are one block load (R340). -/
theorem exec_ldmOf (p u : Bool) (cond : Cond) (ub w : Bool) (rn : Reg) (list : BitVec 16) (s : State) :
    exec (ldmOf p u cond ub w rn list) s = conditional cond s (blockLoad p u ub w rn list s) := by
  cases p <;> cases u <;> rfl

/-! ## The shared checks -/

theorem checked_of_allowed {s : State} {bad : Bool} {c : UnpredictableCase} {k : Result} (h : Allowed s bad) :
    s.checked bad c k = k := by
  apply checked_pass
  cases hs : s.config.strictUnpredictable with
  | false => rfl
  | true => exact h hs

/-- User and System mode have no SPSR (R61). -/
theorem spsr_eq_none {s : State} (h : s.mode = .usr ∨ s.mode = .sys) : s.spsr = none := by
  unfold State.spsr
  rcases h with h | h <;> rw [h] <;> rfl

theorem withReturnPsr_none {s : State} {k : Word → Result} (h : s.spsr = none) : s.withReturnPsr k = .fault .spsrUnavailable := by
  simp [State.withReturnPsr, h]

/-- The checks of an LDM that returns from an exception and lists a register: of them only the SPSR and the base of R15 are
left (R349, R352). -/
theorem checkedBlock_return {list : BitVec 16} (hl : list ≠ 0) (ub w : Bool) (rn : Reg) (s : State) (k : Word → Result) :
    checkedBlock list true ub w false rn s k = s.withReturnPsr fun p => s.checked (rn = 15) .blockBasePC (k p) := by
  rw [checkedBlock, if_neg fun h => hl h.1, checked_pass (by simp [badUserBank]), checked_pass (by simp), if_pos rfl]

/-! ## Without an SPSR -/

section NoSpsr
variable {s : State} (hspsr : s.spsr = none)
include hspsr

theorem moveFromPsr_unavailable (rd : Reg) : moveFromPsr true rd s = .fault .spsrUnavailable := by
  simp [moveFromPsr, hspsr]

theorem moveToPsr_unavailable (mask : PsrMask) (fromPc : Bool) (v : Word) :
    moveToPsr true mask fromPc v s = .fault .spsrUnavailable := by
  simp [moveToPsr, moveToSpsr, hspsr]

/-- A non-test operation with Rd = 15 and S = 1 looks for the SPSR before it writes anything (R265). -/
theorem dataProcess_unavailable {op : AluOp} (hop : isTest op = false) (a : Word) (o : Shifted) (extra : Word) :
    dataProcess op true 15 a o extra s = .fault .spsrUnavailable := by
  simp [dataProcess, hop, withReturnPsr_none hspsr]

/-- LDM with S = 1 and R15 in its list (R352). -/
theorem blockLoad_unavailable (p u w : Bool) (rn : Reg) {list : BitVec 16} (hpc : list.getLsbD 15 = true) :
    blockLoad p u true w rn list s = .fault .spsrUnavailable := by
  have hl : list ≠ 0 := by rintro rfl; simp at hpc
  have hregs : effectiveList list = list := if_neg hl
  simp only [blockLoad, hregs, hpc, Bool.and_true, checkedBlock_return hl, withReturnPsr_none hspsr]

end NoSpsr

/-- Settles O23: with a true condition each of these instructions runs its family's body, and each body meets the missing SPSR
before anything else that could stop or change the state. -/
theorem spsrUnavailableInUserAndSystem : Obligations.SpsrUnavailableInUserAndSystem := by
  intro cond s hcond hmode
  have hspsr := spsr_eq_none hmode
  refine ⟨fun rd => ?mrs, fun mask rm => ?msrReg, fun mask rotate imm => ?msrImm, fun op rn rotate imm hop => ?imm,
    fun op rn amount ty rm hop => ?shimm, fun op rn rs ty rm hop hrs => ?shreg, fun p u w rn list hpc => ?ldm⟩
  case mrs => exact (conditional_pass hcond).trans (moveFromPsr_unavailable hspsr rd)
  case msrReg => exact (conditional_pass hcond).trans (moveToPsr_unavailable hspsr mask _ _)
  case msrImm => exact (conditional_pass hcond).trans (moveToPsr_unavailable hspsr mask _ _)
  case imm =>
    rw [exec_dpImm, conditional_pass hcond, Bool.or_true]
    exact dataProcess_unavailable hspsr hop _ _ _
  case shimm =>
    rw [exec_dpShimm, conditional_pass hcond, Bool.or_true]
    exact dataProcess_unavailable hspsr hop _ _ _
  case shreg =>
    rw [exec_dpShreg, conditional_pass hcond, Bool.or_true, dataProcShreg, checked_of_allowed hrs]
    exact dataProcess_unavailable hspsr hop _ _ _
  case ldm =>
    rw [exec_ldmOf, conditional_pass hcond]
    exact blockLoad_unavailable hspsr p u w rn hpc

end Sys2Proof.Machine

/-! What a write of each width does to the wait-state register (R83, R116): the halves of a register as its two bytes, the
register after a byte at each of its addresses, and after a halfword at a forced address. -/

namespace Sys2Proof.Machine

/-! ## A halfword as its two bytes -/

/-- A mask given byte by byte masks the high byte and the low byte apart. -/
theorem half_and_append (x : Half) (p q : Byte) :
    x &&& (p ++ q : Half) = (x.extractLsb' 8 8 &&& p) ++ (x.extractLsb' 0 8 &&& q) := by
  have hx : (x.extractLsb' 8 8 ++ x.extractLsb' 0 8 : Half) = x := BitVec.extractLsb'_append_extractLsb' (w := 8) (len := 8)
  calc x &&& (p ++ q : Half) = (x.extractLsb' 8 8 ++ x.extractLsb' 0 8 : Half) &&& (p ++ q : Half) := by rw [hx]
    _ = _ := BitVec.and_append (w := 8) (v := 8)

theorem byte_and_ones (b : Byte) : b &&& 0xFF#8 = b := BitVec.and_allOnes

theorem zeroExtend_byte (b : Byte) : b.zeroExtend 16 = (0#8 ++ b : Half) := BitVec.setWidth_eq_append (by decide)

theorem zeroExtend_byte_shiftLeft (b : Byte) : b.zeroExtend 16 <<< 8 = (b ++ 0#8 : Half) := by
  have h := BitVec.setWidth_append_eq_shiftLeft_setWidth_or (w'' := 16) (b := b) (b' := 0#8)
  simpa using h.symm

/-! ## The register after one byte -/

/-- A byte at `0x04000204` replaces the low half (R83). -/
theorem waitcntAfter_low (wc : Half) (b : Byte) :
    State.waitcntAfter wc 0x04000204#32 b = (wc &&& 0xFF00#16) ||| b.zeroExtend 16 := by
  have hmask : wc &&& 0xFF00#16 = (wc.extractLsb' 8 8 ++ 0#8 : Half) := by
    simpa [byte_and_ones] using half_and_append wc 0xFF#8 0#8
  rw [hmask, zeroExtend_byte]
  refine (?_ : _ = _).trans (BitVec.or_append (w := 8) (v := 8)).symm
  simp [State.waitcntAfter]

/-- A byte at `0x04000205` replaces the high half, without bits 13 and 15 (R83). -/
theorem waitcntAfter_high (wc : Half) (b : Byte) :
    State.waitcntAfter wc 0x04000205#32 b = ((b.zeroExtend 16 <<< 8) &&& 0x5F00#16) ||| (wc &&& 0x00FF#16) := by
  have hnew : (b ++ 0#8 : Half) &&& 0x5F00#16 = ((b &&& 0x5F#8) ++ 0#8 : Half) :=
    BitVec.and_append (w := 8) (v := 8) (x₂ := 0x5F#8) (y₂ := 0#8)
  have hkept : wc &&& 0x00FF#16 = (0#8 ++ wc.extractLsb' 0 8 : Half) := by
    simpa [byte_and_ones] using half_and_append wc 0#8 0xFF#8
  rw [zeroExtend_byte_shiftLeft, hnew, hkept]
  refine (?_ : _ = _).trans (BitVec.or_append (w := 8) (v := 8)).symm
  simp [State.waitcntAfter]

/-- A byte at any other address leaves the register. -/
theorem waitcntAfter_of_ne {a : Word} (hlow : a ≠ 0x04000204#32) (hhigh : a ≠ 0x04000205#32) (wc : Half) (b : Byte) :
    State.waitcntAfter wc a b = wc := by
  rw [State.waitcntAfter, if_neg hlow, if_neg hhigh]

/-- A byte outside the halfword of the register leaves it. -/
theorem memWrite8_waitcnt_of_ne {a : Word} (h : alignHalf a ≠ 0x04000204#32) (s : State) (b : Byte) :
    (s.memWrite8 a b).waitcnt = s.waitcnt := by
  refine waitcntAfter_of_ne ?_ ?_ s.waitcnt b
  · rintro rfl
    exact h (by decide)
  · rintro rfl
    exact h (by decide)

/-! ## The register after a halfword -/

theorem alignHalf_ne_of_odd {c : Word} (hodd : alignHalf c ≠ c) (a : Word) : alignHalf a ≠ c := by
  rintro rfl
  exact hodd (alignHalf_idem a)

/-- The wait-state register after a halfword write: the halfword at its own address, without bits 13 and 15 (R83, R116). -/
theorem memWrite16_waitcnt (s : State) (a : Word) (h : Half) :
    (s.memWrite16 a h).waitcnt = if alignHalf a = 0x04000204#32 then h &&& 0x5FFF#16 else s.waitcnt := by
  split
  case isTrue ha =>
    have hmask : h &&& 0x5FFF#16 = ((h.extractLsb' 8 8 &&& 0x5F#8) ++ h.extractLsb' 0 8 : Half) := by
      simpa [byte_and_ones] using half_and_append h 0x5F#8 0xFF#8
    have hlow : (s.waitcnt.extractLsb' 8 8 ++ h.extractLsb' 0 8 : Half).extractLsb' 0 8 = h.extractLsb' 0 8 :=
      BitVec.extractLsb'_append_eq_right (w := 8)
    simp [State.memWrite16, ha, State.waitcntAfter, hmask, hlow]
  case isFalse ha =>
    have hodd5 : alignHalf a ≠ 0x04000205#32 := alignHalf_ne_of_odd (by decide) a
    have hodd3 : alignHalf a ≠ 0x04000203#32 := alignHalf_ne_of_odd (by decide) a
    exact waitcnt_memWrite16 s a h (by bv_omega) (by bv_omega)

/-- Settles O51: each byte address by its own rule, each wider width by the register its forced address leaves. The premise on bits 13
and 15 is not needed: a replaced high half is masked, and the other half of the register is kept as it was. -/
theorem waitControlWrites : Obligations.WaitControlWrites := by
  intro s a v h b _
  refine ⟨waitcntAfter_low s.waitcnt b, waitcntAfter_high s.waitcnt b, ?half, ?halfOdd, fun ha => ?word,
    fun ha => ⟨memWrite8_waitcnt_of_ne ha s b, ?otherHalf⟩, fun ha => ?otherWord⟩
  case half => exact (memWrite16_waitcnt s _ h).trans (if_pos (by decide))
  case halfOdd => exact (memWrite16_waitcnt s _ h).trans (if_pos (by decide))
  case word => exact (memWrite32_waitcnt s a v).trans (if_pos ha)
  case otherHalf => exact (memWrite16_waitcnt s a h).trans (if_neg ha)
  case otherWord => exact (memWrite32_waitcnt s a v).trans (if_neg ha)

end Sys2Proof.Machine

/-! Which raw instructions have no format (R170, R171, R192): three facts about bit fields, the undefined entries of the ARM table
group by group, and the undefined patterns of the Thumb walk. -/

namespace Sys2Proof

/-! ## Bit fields -/

/-- A field has a value when each of its bits has the value's bit. -/
theorem extractLsb'_eq_iff {w len : Nat} (x : BitVec w) (lo : Nat) (b : BitVec len) :
    x.extractLsb' lo len = b ↔ ∀ i < len, x.getLsbD (lo + i) = b.getLsbD i := by
  rw [BitVec.eq_of_getLsbD_eq_iff]
  refine forall₂_congr fun i hi => ?_
  simp [hi]

/-- A field has a value when its high part and its low part have the value's parts. -/
theorem extractLsb'_eq_append_iff {w m n : Nat} (x : BitVec w) (lo : Nat) (a : BitVec m) (b : BitVec n) :
    x.extractLsb' lo (m + n) = a ++ b ↔ x.extractLsb' (lo + n) m = a ∧ x.extractLsb' lo n = b := by
  rw [← BitVec.extractLsb'_append_extractLsb'_eq_extractLsb' rfl]
  constructor
  · intro h
    have hleft := congrArg (BitVec.extractLsb' n m) h
    have hright := congrArg (BitVec.extractLsb' 0 n) h
    rw [BitVec.extractLsb'_append_eq_left, BitVec.extractLsb'_append_eq_left] at hleft
    rw [BitVec.extractLsb'_append_eq_right, BitVec.extractLsb'_append_eq_right] at hright
    exact ⟨hleft, hright⟩
  · rintro ⟨rfl, rfl⟩
    rfl

/-- A field has a value when the quotient and remainder that cut it out of the number have it. -/
theorem extractLsb'_eq_iff_toNat {w len : Nat} (x : BitVec w) (lo : Nat) (b : BitVec len) :
    x.extractLsb' lo len = b ↔ x.toNat / 2 ^ lo % 2 ^ len = b.toNat := by
  rw [← BitVec.toNat_inj, BitVec.extractLsb'_toNat, Nat.shiftRight_eq_div_pow]

/-! ## The ARM table -/

/-- The entries with `lo = 1001`: with bit 4 of `hi` clear the multiplies, all but `hi[4:2] = 001`; with bit 4 set the swaps,
whose bits 3, 1 and 0 are clear (R170 (b)). -/
theorem armFormat000_multiply_eq_undefined_iff (hi : BitVec 8) :
    armFormat000 hi 0b1001#4 = .undefined ↔
      (hi.getLsbD 4 = true ∧ (hi.getLsbD 3 = true ∨ hi.getLsbD 1 = true ∨ hi.getLsbD 0 = true)) ∨
        hi.extractLsb' 2 3 = 0b001#3 := by
  simp only [armFormat000, if_true, extractLsb'_eq_iff, Nat.forall_lt_succ_right]
  cases h4 : hi[4] with
  | false => cases h3 : hi[3] <;> simp [h4, h3]
  | true => cases h3 : hi[3] <;> simp [h4, h3, imp_iff_not_or, or_comm]

/-- The entries with `lo` one of `1011`, `1101`, `1111`, the halfword slots (R170 (c), (d)). -/
theorem armFormat000_halfword_eq_undefined_iff {hi : BitVec 8} {lo : BitVec 4} (h9 : lo ≠ 0b1001#4)
    (hlo : lo.getLsbD 3 = true ∧ lo.getLsbD 0 = true) :
    armFormat000 hi lo = .undefined ↔
      (hi.getLsbD 0 = false ∧ lo.extractLsb' 1 2 ≠ 0b01#2) ∨ (hi.getLsbD 4 = false ∧ hi.getLsbD 1 = true) := by
  rw [armFormat000, if_neg h9, if_pos hlo]
  split_ifs <;> simp_all

/-- The entries with a bit of `lo` clear, register-operand data processing and the control space in the place of its tests
without S (R170 (e)). -/
theorem armFormat000_register_eq_undefined_iff {hi : BitVec 8} {lo : BitVec 4} (h9 : lo ≠ 0b1001#4)
    (hlo : ¬ (lo.getLsbD 3 = true ∧ lo.getLsbD 0 = true)) :
    armFormat000 hi lo = .undefined ↔
      hi.extractLsb' 3 2 = 0b10#2 ∧ hi.getLsbD 0 = false ∧ lo ≠ 0b0000#4 ∧ (hi ≠ 0b00010010#8 ∨ lo ≠ 0b0001#4) := by
  rw [armFormat000, if_neg h9, if_neg hlo, ← not_and_or]
  split_ifs <;> simp_all

/-- The undefined entries with `hi[7:5] = 000` (R170 (b) to (e)). -/
theorem armFormat000_eq_undefined_iff (hi : BitVec 8) (lo : BitVec 4) :
    armFormat000 hi lo = .undefined ↔
      (lo = 0b1001#4 ∧ hi.getLsbD 4 = true ∧ (hi.getLsbD 3 = true ∨ hi.getLsbD 1 = true ∨ hi.getLsbD 0 = true)) ∨
      (lo = 0b1001#4 ∧ hi.extractLsb' 2 3 = 0b001#3) ∨
      ((lo = 0b1101#4 ∨ lo = 0b1111#4) ∧ hi.getLsbD 0 = false) ∨
      ((lo = 0b1011#4 ∨ lo = 0b1101#4 ∨ lo = 0b1111#4) ∧ hi.getLsbD 4 = false ∧ hi.getLsbD 1 = true) ∨
      (hi.extractLsb' 3 2 = 0b10#2 ∧ hi.getLsbD 0 = false ∧ (lo.getLsbD 3 = false ∨ lo.getLsbD 0 = false) ∧ lo ≠ 0b0000#4 ∧
        (hi ≠ 0b00010010#8 ∨ lo ≠ 0b0001#4)) := by
  by_cases h9 : lo = 0b1001#4
  · subst h9
    simp [armFormat000_multiply_eq_undefined_iff]
  by_cases hlo : lo.getLsbD 3 = true ∧ lo.getLsbD 0 = true
  · have hslots : ∀ x : BitVec 4, x ≠ 0b1001#4 → x.getLsbD 3 = true ∧ x.getLsbD 0 = true →
        x = 0b1011#4 ∨ x = 0b1101#4 ∨ x = 0b1111#4 := by decide
    rw [armFormat000_halfword_eq_undefined_iff h9 hlo]
    obtain rfl | rfl | rfl := hslots lo h9 hlo <;> simp
  · have hB : lo ≠ 0b1011#4 := by rintro rfl; exact hlo (by decide)
    have hD : lo ≠ 0b1101#4 := by rintro rfl; exact hlo (by decide)
    have hF : lo ≠ 0b1111#4 := by rintro rfl; exact hlo (by decide)
    have hclear : lo.getLsbD 3 = false ∨ lo.getLsbD 0 = false := by simpa [or_iff_not_imp_left] using hlo
    rw [armFormat000_register_eq_undefined_iff h9 hlo]
    simp only [h9, hB, hD, hF, hclear, false_and, false_or, or_false, true_and]

/-- The undefined entries with `hi[7:5] = 001` (R170 (f)). -/
theorem armFormat_immediate_eq_undefined_iff {hi : BitVec 8} (h : hi.extractLsb' 5 3 = 0b001#3) (lo : BitVec 4) :
    armFormat hi lo = .undefined ↔ hi.extractLsb' 3 2 = 0b10#2 ∧ hi.extractLsb' 0 2 = 0b00#2 := by
  have hlow : hi.extractLsb' 0 2 = 0b00#2 ↔ hi.getLsbD 0 = false ∧ hi.getLsbD 1 = false := by
    simp only [extractLsb'_eq_iff, Nat.forall_lt_succ_right]
    simp
  simp only [armFormat, h, hlow]
  split_ifs <;> simp_all

/-- The undefined entries with `hi[7:5] = 111` (R171). -/
theorem armFormat_coprocessor_eq_undefined_iff {hi : BitVec 8} (h : hi.extractLsb' 5 3 = 0b111#3) (lo : BitVec 4) :
    armFormat hi lo = .undefined ↔ hi.extractLsb' 4 1 = 0b0#1 := by
  simp [armFormat, h, extractLsb'_eq_iff]

/-- The undefined entries of the ARM table are those R170 and R171 list. -/
theorem armFormat_eq_undefined_iff (hi : BitVec 8) (lo : BitVec 4) :
    armFormat hi lo = .undefined ↔
      (hi.extractLsb' 5 3 = 0b011#3 ∧ lo.getLsbD 0 = true) ∨
      (hi.extractLsb' 5 3 = 0b000#3 ∧ lo = 0b1001#4 ∧ hi.getLsbD 4 = true ∧
        (hi.getLsbD 3 = true ∨ hi.getLsbD 1 = true ∨ hi.getLsbD 0 = true)) ∨
      (hi.extractLsb' 5 3 = 0b000#3 ∧ lo = 0b1001#4 ∧ hi.extractLsb' 2 3 = 0b001#3) ∨
      (hi.extractLsb' 5 3 = 0b000#3 ∧ (lo = 0b1101#4 ∨ lo = 0b1111#4) ∧ hi.getLsbD 0 = false) ∨
      (hi.extractLsb' 5 3 = 0b000#3 ∧ (lo = 0b1011#4 ∨ lo = 0b1101#4 ∨ lo = 0b1111#4) ∧ hi.getLsbD 4 = false ∧
        hi.getLsbD 1 = true) ∨
      (hi.extractLsb' 3 5 = 0b00010#5 ∧ hi.getLsbD 0 = false ∧ (lo.getLsbD 3 = false ∨ lo.getLsbD 0 = false) ∧ lo ≠ 0b0000#4 ∧
        (hi ≠ 0b00010010#8 ∨ lo ≠ 0b0001#4)) ∨
      (hi.extractLsb' 3 5 = 0b00110#5 ∧ hi.extractLsb' 0 2 = 0b00#2) ∨
      hi.extractLsb' 5 3 = 0b110#3 ∨ hi.extractLsb' 4 4 = 0b1110#4 := by
  have hcontrol : hi.extractLsb' 3 5 = 0b00010#5 ↔ hi.extractLsb' 5 3 = 0b000#3 ∧ hi.extractLsb' 3 2 = 0b10#2 :=
    extractLsb'_eq_append_iff hi 3 0b000#3 0b10#2
  have himmediate : hi.extractLsb' 3 5 = 0b00110#5 ↔ hi.extractLsb' 5 3 = 0b001#3 ∧ hi.extractLsb' 3 2 = 0b10#2 :=
    extractLsb'_eq_append_iff hi 3 0b001#3 0b10#2
  have hcoprocessor : hi.extractLsb' 4 4 = 0b1110#4 ↔ hi.extractLsb' 5 3 = 0b111#3 ∧ hi.extractLsb' 4 1 = 0b0#1 :=
    extractLsb'_eq_append_iff hi 4 0b111#3 0b0#1
  have hgroups : ∀ x : BitVec 3, x = 0b000#3 ∨ x = 0b001#3 ∨ x = 0b010#3 ∨ x = 0b011#3 ∨ x = 0b100#3 ∨ x = 0b101#3 ∨
      x = 0b110#3 ∨ x = 0b111#3 := by decide
  rw [hcontrol, himmediate, hcoprocessor]
  obtain h | h | h | h | h | h | h | h := hgroups (hi.extractLsb' 5 3)
  · have hrow : armFormat hi lo = armFormat000 hi lo := by simp [armFormat, h]
    simp [hrow, armFormat000_eq_undefined_iff, h]
  · simp [armFormat_immediate_eq_undefined_iff h, h]
  · simp [armFormat, h]
  · simp [armFormat, h]
  · simp [armFormat, h]
  · simp [armFormat, h]
  · simp [armFormat, h]
  · simp [armFormat_coprocessor_eq_undefined_iff h, h]

theorem decode_arm_of_format_undefined {w : Word} (h : armFormat (w.extractLsb' 20 8) (w.extractLsb' 4 4) = .undefined) :
    decode (.arm w) = .undefined w (w.extractLsb' 20 8 ++ w.extractLsb' 4 4) .arm := by
  simp only [decode, decodeArm, h, armIndex]

theorem decode_arm_of_format_ne_undefined {w : Word}
    (h : armFormat (w.extractLsb' 20 8) (w.extractLsb' 4 4) ≠ .undefined) : ∃ i, decode (.arm w) = .instr i := by
  cases hf : armFormat (w.extractLsb' 20 8) (w.extractLsb' 4 4)
  case undefined => exact absurd hf h
  all_goals simp only [decode, decodeArm, hf, DecodeResult.instr.injEq, exists_eq']

/-- Settles O4: the table entry decides whether a word decodes, and the undefined entries are those of R170 and R171. -/
theorem armUndefinedWords : Obligations.ArmUndefinedWords := by
  intro w hi lo undefined
  have hformat : armFormat hi lo = .undefined ↔ undefined := armFormat_eq_undefined_iff hi lo
  exact ⟨fun h => decode_arm_of_format_undefined (hformat.2 h), fun h => decode_arm_of_format_ne_undefined (mt hformat.1 h)⟩

end Sys2Proof

/-! The Thumb format walk (R190) and the halfwords it leaves undefined (R192). -/

namespace Sys2Proof

/-- The walk meets an undefined pattern in three places: space `1011` past formats 13 and 14, format 16 with condition `1110`,
and the BLX suffix. No pattern tried before one of these matches the same halfword. -/
theorem thumbFormat_eq_undefined_iff (t : Half) :
    thumbFormat t = .undefined ↔
      (t.extractLsb' 12 4 = 0b1011#4 ∧ t.extractLsb' 8 8 ≠ 0b10110000#8 ∧ t.extractLsb' 9 2 ≠ 0b10#2) ∨
        t.extractLsb' 8 8 = 0b11011110#8 ∨ t.extractLsb' 11 5 = 0b11101#5 := by
  simp only [thumbFormat, ite_eq_iff, reduceCtorEq, and_false, false_or, or_false, and_true, ne_eq]
  constructor
  · tauto
  · simp only [extractLsb'_eq_iff_toNat, BitVec.reduceToNat, Nat.reducePow]
    intro h
    and_intros <;> omega

/-- The same halfwords by the number of their high byte. -/
theorem thumbFormat_eq_undefined_iff_ranges (t : Half) :
    thumbFormat t = .undefined ↔
      let top := (t.extractLsb' 8 8).toNat
      (0xB1 ≤ top ∧ top ≤ 0xB3) ∨ (0xB6 ≤ top ∧ top ≤ 0xBB) ∨ (0xBE ≤ top ∧ top ≤ 0xBF) ∨ top = 0xDE ∨
        (0xE8 ≤ top ∧ top ≤ 0xEF) := by
  have hlt := t.isLt
  simp only [thumbFormat_eq_undefined_iff, ne_eq, extractLsb'_eq_iff_toNat, BitVec.extractLsb'_toNat,
    Nat.shiftRight_eq_div_pow, BitVec.reduceToNat, Nat.reducePow]
  omega

theorem decode_thumb_of_format_undefined {t : Half} (h : thumbFormat t = .undefined) :
    decode (.thumb t) = .undefined (t.zeroExtend 32) ((t.extractLsb' 8 8).zeroExtend 12) .thumb := by
  simp only [decode, decodeThumb, h]

theorem decode_thumb_of_format_ne_undefined {t : Half} (h : thumbFormat t ≠ .undefined) :
    ∃ i, decode (.thumb t) = .instr i := by
  cases hf : thumbFormat t
  case undefined => exact absurd hf h
  all_goals simp only [decode, decodeThumb, hf, DecodeResult.instr.injEq, exists_eq']

/-- Settles O5: the format walk decides whether a halfword decodes, and its undefined patterns are the ranges of R192. -/
theorem thumbUndefinedHalfwords : Obligations.ThumbUndefinedHalfwords := by
  intro t top undefined
  have hformat : thumbFormat t = .undefined ↔ undefined := thumbFormat_eq_undefined_iff_ranges t
  exact ⟨fun h => decode_thumb_of_format_undefined (hformat.2 h),
    fun h => decode_thumb_of_format_ne_undefined (mt hformat.1 h)⟩

end Sys2Proof

/-! What a false condition does (R221), and the barrel shifter bit by bit and at every amount (R226 to R235). -/

namespace Sys2Proof.Machine

/-! ## Conditions -/

theorem conditional_nv_fault {s : State} (hnv : s.config.nvCond = .fault) (body : Result) :
    conditional .nv s body = .fault .neverCondition :=
  if_pos ⟨rfl, hnv⟩

/-- Every instruction is a body under its condition. An arm of a Thumb instruction that carries none is its own body: AL passes in
every state (R221, R222). -/
theorem exec_eq_conditional (i : Instr) (s : State) : ∃ body, exec i s = conditional (condOf i) s body := by
  cases i <;> exact ⟨_, rfl⟩

/-- Settles O10: every instruction runs under its condition, and a condition that fails leaves the two settings of
`COND_FAIL_CYCLES` to compare. -/
theorem conditionFails : Obligations.ConditionFails := by
  intro i s
  obtain ⟨body, hexec⟩ := exec_eq_conditional i s
  rw [hexec]
  refine ⟨fun hcond hnv => ?fault, fun hnever hfalse => ?skip⟩
  case fault => rw [hcond, conditional_nv_fault hnv]
  case skip =>
    rw [conditional_fail hfalse (Decidable.not_or_of_imp hnever), State.chargeCondFail]
    cases s.config.condFailCycles with
    | zero => simp [State.advance]
    | oneS => rfl

/-! ## The sign bit -/

theorem msb_eq_bit31 (v : Word) : v.msb = v.getLsbD 31 := BitVec.msb_eq_getLsbD_last v

theorem signFill_eq_ite_bit31 (v : Word) : signFill v = if v.getLsbD 31 then 0xFFFFFFFF#32 else 0 := by
  rw [signFill, msb_eq_bit31]

/-! ## A shift by 1 to 31, bit by bit -/

section ShiftBits
variable (v : Word) {n i : Nat}

theorem getLsbD_shiftBy_lsl (hi : i < 32) :
    (shiftBy .lsl n v).value.getLsbD i = (decide (n ≤ i) && v.getLsbD (i - n)) := by
  simp only [shiftBy, BitVec.getLsbD_shiftLeft, hi, decide_true, Bool.true_and, ← decide_not, Nat.not_lt]

theorem getLsbD_shiftBy_lsr : (shiftBy .lsr n v).value.getLsbD i = (decide (i + n < 32) && v.getLsbD (i + n)) := by
  simp only [shiftBy, BitVec.getLsbD_ushiftRight, Nat.add_comm n i]
  by_cases h : i + n < 32
  · simp [h]
  · simp [h, BitVec.getLsbD_of_ge v (i + n) (Nat.le_of_not_lt h)]

theorem getLsbD_shiftBy_asr (hi : i < 32) : (shiftBy .asr n v).value.getLsbD i = v.getLsbD (min (i + n) 31) := by
  simp only [shiftBy, BitVec.getLsbD_sshiftRight, Nat.not_le.2 hi, decide_false, Bool.not_false, Bool.true_and, Nat.add_comm n i]
  split
  case isTrue h => rw [Nat.min_eq_left (by omega)]
  case isFalse h => rw [Nat.min_eq_right (by omega), msb_eq_bit31]

theorem getLsbD_shiftBy_ror (hi : i < 32) (hn : n < 32) :
    (shiftBy .ror n v).value.getLsbD i = v.getLsbD ((i + n) % 32) := by
  rw [shiftBy, BitVec.getLsbD_rotateRight_of_lt hn]
  by_cases h : i < 32 - n
  · simp [h, Nat.add_comm n i, Nat.mod_eq_of_lt (show i + n < 32 by omega)]
  · have hwrap : i - (32 - n) = (i + n) % 32 := by omega
    simp [h, hi, hwrap]

end ShiftBits

/-! ## The immediate form -/

/-- RRX: the carry enters above the 31 upper bits (R226). -/
theorem rrx_eq_shiftRight_or (v : Word) (c : Bool) :
    (BitVec.ofBool c ++ v.extractLsb' 1 31 : Word) = (v >>> 1) ||| (if c then 0x80000000#32 else 0) := by
  have hshift : v >>> 1 = (0#1 ++ v.extractLsb' 1 31 : Word) := BitVec.ushiftRight_eq_extractLsb'_of_lt (by decide)
  have hcarry : (if c then 0x80000000#32 else 0) = (BitVec.ofBool c ++ 0#31 : Word) := by cases c <;> rfl
  rw [hshift, hcarry]
  refine (?_ : _ = _).trans (BitVec.or_append (w := 1) (v := 31)).symm
  rw [BitVec.zero_or, BitVec.or_zero]

/-- An immediate amount of 1 to 31 is a plain shift (R227 to R230). -/
theorem shiftImm_of_pos {amount : BitVec 5} (h : 0 < amount.toNat) (ty : ShiftType) (v : Word) (c : Bool) :
    shiftImm ty amount v c = shiftBy ty amount.toNat v :=
  if_neg (by rintro rfl; exact absurd h (by decide))

/-- Settles O14: the four readings of amount 0, then the bits of a shift by 1 to 31, whose carry-out is the model's own. -/
theorem shifterImmediate : Obligations.ShifterImmediate := by
  intro amount v c n
  refine ⟨rfl, ?lsrZero, ?asrZero, ?rrx, fun hn => ?positive⟩
  case lsrZero => exact congrArg (Shifted.mk 0) (msb_eq_bit31 v)
  case asrZero => exact congrArg₂ Shifted.mk (signFill_eq_ite_bit31 v) (msb_eq_bit31 v)
  case rrx => exact congrArg (Shifted.mk · (v.getLsbD 0)) (rrx_eq_shiftRight_or v c)
  case positive =>
    simp only [shiftImm_of_pos hn]
    exact ⟨rfl, rfl, rfl, rfl, fun i hi => ⟨getLsbD_shiftBy_lsl v hi, getLsbD_shiftBy_lsr v, getLsbD_shiftBy_asr v hi,
      getLsbD_shiftBy_ror v hi amount.isLt⟩⟩

/-! ## The register form -/

/-- A register amount of 1 to 31 is a plain shift (R231). -/
theorem shiftReg_of_lt {a : BitVec 8} (hpos : 0 < a.toNat) (hlt : a.toNat < 32) (ty : ShiftType) (v : Word) (c : Bool) :
    shiftReg ty a v c = shiftBy ty a.toNat v := by
  have hne : a ≠ 0 := by rintro rfl; exact absurd hpos (by decide)
  rw [shiftReg, if_neg hne, if_pos hlt]

theorem shiftReg_of_ge {a : BitVec 8} (h : 32 ≤ a.toNat) (ty : ShiftType) (v : Word) (c : Bool) :
    shiftReg ty a v c = shiftBig ty a.toNat v := by
  have hne : a ≠ 0 := by rintro rfl; exact absurd h (by decide)
  rw [shiftReg, if_neg hne, if_neg (Nat.not_lt.2 h)]

/-- The immediate form at the low five bits of an amount that is no multiple of 32. -/
theorem shiftImm_ofNat {n : Nat} (h : 0 < n % 32) (ty : ShiftType) (v : Word) (c : Bool) :
    shiftImm ty (BitVec.ofNat 5 n) v c = shiftBy ty (n % 32) v :=
  shiftImm_of_pos (amount := BitVec.ofNat 5 n) h ty v c

/-- Settles O15: amount 0, the amounts below 32, and the four shift types at 32 and more. -/
theorem shifterRegister : Obligations.ShifterRegister := by
  intro ty a v c n fill k
  refine ⟨fun hzero => ?zero, fun hpos hlt => ?below, fun (h32 : a.toNat = 32) => ?at32,
    fun (habove : 32 < a.toNat) => ?above, fun hge => ?asr, fun hge hmod => ?rorWhole, fun hge hmod => ?ror⟩
  case zero => exact if_pos (BitVec.eq_of_toNat_eq hzero)
  case below =>
    have hmod : n % 32 = n := Nat.mod_eq_of_lt hlt
    rw [shiftReg_of_lt hpos hlt, shiftImm_ofNat (hmod.symm ▸ hpos), hmod]
  case at32 =>
    simp only [shiftReg_of_ge h32.ge, shiftBig, h32, decide_true, Bool.true_and, msb_eq_bit31, and_self]
  case above =>
    simp only [shiftReg_of_ge habove.le, shiftBig, decide_eq_false habove.ne', Bool.false_and, and_self]
  case asr => rw [shiftReg_of_ge hge, shiftBig, signFill_eq_ite_bit31, msb_eq_bit31]
  case rorWhole => rw [shiftReg_of_ge hge, shiftBig, if_pos hmod, msb_eq_bit31]
  case ror => rw [shiftReg_of_ge hge, shiftBig, if_neg hmod, shiftImm_ofNat (Nat.pos_of_ne_zero hmod)]

end Sys2Proof.Machine

/-! AddWithCarry as the 33-bit sum and the signed sum (R262), and the CPSR that MSR leaves (R286, R287). -/

namespace Sys2Proof.Machine

/-! ## The addition -/

section Addition
variable (x y : Word) (cin : Bool)

/-- The sum of 33 bits does not wrap. -/
theorem sum33_toNat :
    (x.zeroExtend 33 + y.zeroExtend 33 + (BitVec.ofBool cin).zeroExtend 33).toNat = x.toNat + y.toNat + cin.toNat := by
  have hx := x.isLt
  have hy := y.isLt
  have hc := cin.toNat_le
  simp only [BitVec.truncate_eq_setWidth, BitVec.toNat_add, BitVec.toNat_setWidth, BitVec.toNat_ofBool]
  omega

theorem addWithCarry_res : (addWithCarry x y cin).res = x + y + BitVec.ofNat 32 cin.toNat := by
  simp [addWithCarry, BitVec.ofNat_add]

theorem addWithCarry_carry : (addWithCarry x y cin).carry = decide (2 ^ 32 ≤ x.toNat + y.toNat + cin.toNat) := rfl

theorem addWithCarry_overflow :
    (addWithCarry x y cin).overflow = true ↔ x.msb = y.msb ∧ (addWithCarry x y cin).res.msb ≠ x.msb := by
  simp [addWithCarry]

/-- Operands of one sign give the other exactly when their signed sum is not in range. -/
theorem addWithCarry_overflow_iff_toInt :
    (addWithCarry x y cin).overflow = true ↔ x.toInt + y.toInt + cin.toNat ≠ (addWithCarry x y cin).res.toInt := by
  have hx := x.isLt
  have hy := y.isLt
  have hc := cin.toNat_le
  have hres : (addWithCarry x y cin).res.toNat = (x.toNat + y.toNat + cin.toNat) % 2 ^ 32 := BitVec.toNat_ofNat _ _
  rw [addWithCarry_overflow]
  simp only [BitVec.toInt_eq_toNat_cond, BitVec.msb_eq_decide, ne_eq, decide_eq_decide]
  omega

/-! ## With the complement of an operand -/

theorem addWithCarry_not_res :
    (addWithCarry x (~~~y) cin).res = x - y - BitVec.ofNat 32 (1 - cin.toNat) := by
  rw [addWithCarry_res]
  cases cin <;> bv_omega

/-- The carry of a difference: no borrow (R262). -/
theorem addWithCarry_not_carry :
    (addWithCarry x (~~~y) cin).carry = decide (y.toNat + (1 - cin.toNat) ≤ x.toNat) := by
  have hy := y.isLt
  have hc := cin.toNat_le
  rw [addWithCarry_carry, BitVec.toNat_not, decide_eq_decide]
  omega

end Addition

/-- Settles O12: the 33-bit sum and the signed sum by their values, and the difference as the sum with the complement. -/
theorem addWithCarrySum : Obligations.AddWithCarrySum := by
  intro x y cin s r
  have hs : s.toNat = x.toNat + y.toNat + cin.toNat := sum33_toNat x y cin
  refine ⟨?res, ?carry, ?signs, addWithCarry_overflow_iff_toInt x y cin, ?difference, ?noBorrow, addWithCarry_not_res x y cin⟩
  case res => exact congrArg (BitVec.ofNat 32) hs.symm
  case carry => rw [← BitVec.msb_eq_getLsbD_last s, BitVec.msb_eq_decide, hs]; rfl
  case signs => simpa only [msb_eq_bit31] using addWithCarry_overflow x y cin
  case difference => simpa using addWithCarry_not_res x y true
  case noBorrow => simpa using addWithCarry_not_carry x y true

/-! ## The CPSR that MSR leaves -/

section MsrCpsr
variable (s : State) (v : Word) (mask : PsrMask) (privileged : Bool)

/-- The flags byte comes whole from the value, or stays (R286). -/
theorem msrCpsr_flags :
    psrN (msrCpsr s.readCpsr v mask privileged) = (if mask.f then psrN v else s.flagN) ∧
      psrZ (msrCpsr s.readCpsr v mask privileged) = (if mask.f then psrZ v else s.flagZ) ∧
      psrC (msrCpsr s.readCpsr v mask privileged) = (if mask.f then psrC v else s.flagC) ∧
      psrV (msrCpsr s.readCpsr v mask privileged) = (if mask.f then psrV v else s.flagV) := by
  unfold msrCpsr State.readCpsr
  dsimp only
  split <;> split <;> simp [State.flagN, State.flagZ, State.flagC, State.flagV]

/-- I, F and the mode come from the value with `c` in a privileged mode, or stay (R287). -/
theorem msrCpsr_control :
    psrI (msrCpsr s.readCpsr v mask privileged) = (if mask.c && privileged then psrI v else psrI s.cpsr) ∧
      psrF (msrCpsr s.readCpsr v mask privileged) = (if mask.c && privileged then psrF v else psrF s.cpsr) ∧
      psrM (msrCpsr s.readCpsr v mask privileged) = (if mask.c && privileged then psrM v else psrM s.cpsr) := by
  unfold msrCpsr State.readCpsr
  dsimp only
  split <;> split <;> simp

/-- MSR leaves the instruction set as it is (R287). -/
theorem psrT_msrCpsr_readCpsr : psrT (msrCpsr s.readCpsr v mask privileged) = s.thumb :=
  (psrT_msrCpsr _ _ _ _).trans (psrT_implemented _)

end MsrCpsr

theorem thumb_writeCpsr (s : State) (p : Word) : (s.writeCpsr p).thumb = psrT p := psrT_implemented p

section MoveToCpsr
variable {s : State} {mask : PsrMask} {fromPc : Bool} {v : Word} {m : BitVec 5} (hfrom : Allowed s fromPc)
  (hm : psrM (msrCpsr s.readCpsr v mask s.mode.privileged) = m)
include hfrom hm

/-- A mode field that names no mode stops MSR (R57, R287). -/
theorem moveToCpsr_invalidMode (hnone : Mode.ofBits? m = none) : moveToCpsr mask fromPc v s = .fault (.invalidMode m) := by
  simp only [moveToCpsr, checked_of_allowed hfrom, hm, hnone]

theorem moveToCpsr_completes (hsome : (Mode.ofBits? m).isSome = true) :
    moveToCpsr mask fromPc v s =
      .next (((s.chargeCode .S).writeCpsr (msrCpsr s.readCpsr v mask s.mode.privileged)).finish false) := by
  obtain ⟨mode, hmode⟩ := Option.isSome_iff_exists.1 hsome
  simp only [moveToCpsr, checked_of_allowed hfrom, hm, hmode]

end MoveToCpsr

/-- Settles O21: either form is `moveToCpsr` of its value, which stops or goes on by the mode field of the CPSR it would leave, and
that CPSR has each field from the value or from before. -/
theorem moveToCpsr_holds : Obligations.MoveToCpsr := by
  intro cond mask s hcond done
  suffices hdone : ∀ i fromPc v, Allowed s fromPc → exec i s = moveToCpsr mask fromPc v s → done i v from
    ⟨fun rm hrm => hdone _ _ _ hrm (conditional_pass hcond),
      fun rotate imm => hdone _ false _ (fun _ => rfl) (conditional_pass hcond)⟩
  intro i fromPc v hfrom hexec
  unfold done
  intro control m
  obtain ⟨hN, hZ, hC, hV⟩ := msrCpsr_flags s v mask s.mode.privileged
  obtain ⟨hI, hF, hM⟩ := msrCpsr_control s v mask s.mode.privileged
  have hT := psrT_msrCpsr_readCpsr s v mask s.mode.privileged
  refine ⟨fun hnone => ?invalid, fun hsome => ⟨_, hexec.trans (moveToCpsr_completes hfrom hM hsome), ?flags,
    (psrI_implemented _).trans hI, (psrF_implemented _).trans hF, (psrT_implemented _).trans hT, (psrM_implemented _).trans hM,
    reserved_implemented _, ?pc⟩⟩
  case invalid => exact hexec.trans (moveToCpsr_invalidMode hfrom hM hnone)
  case flags =>
    simp only [SameFlags, FlagsAre, State.flagN, State.flagZ, State.flagC, State.flagV, State.finish_cpsr, State.writeCpsr_cpsr,
      psrN_implemented, psrZ_implemented, psrC_implemented, psrV_implemented, hN, hZ, hC, hV]
    split
    · exact ⟨rfl, rfl, rfl, rfl⟩
    · exact ⟨rfl, rfl, rfl, rfl⟩
  case pc => simp [State.ilen, thumb_writeCpsr, hT]

end Sys2Proof.Machine

/-! What a 32-bit multiply leaves (R301, R303, R304): the written register and the pc, the four flags, and the product and the sum
of words as those of numbers modulo 2^32. -/

namespace Sys2Proof.Machine

/-! ## Updates that keep the visible registers -/

theorem readReg_writeFlags (s : State) (n z c v : Bool) (k : Reg) : (s.writeFlags n z c v).readReg k = s.readReg k := by
  simp only [State.readReg, State.readBank, State.mode_writeFlags]
  cases phys k s.mode with
  | pc => simp only [State.readPhys, State.pcRead, State.thumb_writeFlags, State.writeFlags_pc]
  | _ => rfl

theorem readReg_finish (s : State) (wrotePc : Bool) {k : Reg} (hk : k ≠ 15) : (s.finish wrotePc).readReg k = s.readReg k := by
  have hmode : (s.finish wrotePc).mode = s.mode := State.mode_congr (by rw [State.finish_cpsr])
  rw [State.readReg, State.readBank, hmode]
  exact State.readPhys_congr (State.finish_regs s wrotePc) (by simpa using hk)

theorem ilen_writeFlags (s : State) (n z c v : Bool) : (s.writeFlags n z c v).ilen = s.ilen := by
  simp only [State.ilen, State.thumb_writeFlags]

/-! ## The write of the destination and of the flags -/

/-- The end of an instruction after the write of Rd makes it the whole write of registers (R66). -/
theorem wroteReg_finish {s t : State} {rd : Reg} {v : Word} (hreg : rd ≠ 15 → t.readReg rd = v)
    (hpc : t.pc = if rd = 15 then s.alignPc v else s.pc) (hilen : t.ilen = s.ilen) :
    WroteReg s (t.finish (rd = 15)) rd v := by
  by_cases hrd : rd = 15
  · simpa [WroteReg, hrd] using hpc
  · simpa [WroteReg, hrd, readReg_finish _ _ hrd, hilen] using And.intro (hreg hrd) hpc

theorem pc_writeReg_eq_ite (s : State) (rd : Reg) (v : Word) :
    (s.writeReg rd v).pc = if rd = 15 then s.alignPc v else s.pc := by
  split
  case isTrue hrd => rw [hrd, State.writeReg_pc, State.writePc_pc]
  case isFalse hrd => exact State.pc_writeReg s v hrd

theorem flagsAre_writeFlags_finish (s : State) (n z c v wrotePc : Bool) :
    FlagsAre ((s.writeFlags n z c v).finish wrotePc) n z c v := by
  obtain ⟨hN, hZ, hC, hV⟩ := flags_congr (State.finish_cpsr (s.writeFlags n z c v) wrotePc)
  exact ⟨hN.trans (flagN_writeFlags ..), hZ.trans (flagZ_writeFlags ..), hC.trans (flagC_writeFlags ..),
    hV.trans (flagV_writeFlags ..)⟩

/-- The common end of MUL and MLA, at any result and any number of internal cycles: the charges keep the registers and the CPSR,
and the flags, written last, keep Rd and the pc (R301). -/
theorem multiply_done (sf : Bool) (rd : Reg) (res m : Word) (s : State) :
    ∃ t, multiply sf rd res m s = .next t ∧ MulDone sf rd res s t := by
  let u := ((s.chargeCode .S).internal m).writeReg rd res
  have hreg (hrd : rd ≠ 15) : u.readReg rd = res := (State.readReg_writeReg _ rd rd res hrd).trans (if_pos rfl)
  have hpc : u.pc = if rd = 15 then s.alignPc res else s.pc := pc_writeReg_eq_ite _ rd res
  have hcpsr : u.cpsr = s.cpsr := State.writeReg_cpsr _ rd res
  have hilen : u.ilen = s.ilen := State.ilen_congr hcpsr
  obtain ⟨-, -, hC, hV⟩ := flags_congr hcpsr
  cases sf with
  | false => exact ⟨_, rfl, wroteReg_finish hreg hpc hilen, flags_congr ((State.finish_cpsr _ _).trans hcpsr)⟩
  | true =>
    refine ⟨_, rfl, wroteReg_finish (fun hrd => (readReg_writeFlags ..).trans (hreg hrd)) hpc
      ((ilen_writeFlags ..).trans hilen), ?_⟩
    rw [← hC, ← hV]
    exact flagsAre_writeFlags_finish ..

/-! ## The product as a number -/

/-- A product of words is that of the numbers, without the bits above 31 (R303). -/
theorem ofNat_toNat_mul (x y : Word) : BitVec.ofNat 32 (x.toNat * y.toNat) = x * y := by
  rw [BitVec.ofNat_mul, BitVec.ofNat_toNat, BitVec.ofNat_toNat, BitVec.setWidth_eq, BitVec.setWidth_eq]

/-- The same of the product with an accumulator (R304). -/
theorem ofNat_toNat_mul_add (x y a : Word) : BitVec.ofNat 32 (x.toNat * y.toNat + a.toNat) = x * y + a := by
  rw [BitVec.ofNat_add, ofNat_toNat_mul, BitVec.ofNat_toNat, BitVec.setWidth_eq]

/-- Settles O24: with a true condition and allowed registers, MUL and MLA are the common multiply, at the product and at the sum. -/
theorem multiply32 : Obligations.Multiply32 := by
  intro cond sf rd rn rs rm s hcond
  suffices hdone : ∀ i bad res m,
      exec i s = conditional cond s (s.checked bad .mulRegisters (multiply sf rd res m s)) →
      Allowed s bad → Completes i s (MulDone sf rd res s) by
    refine ⟨fun hregs => ?mul, fun hregs => ?mla⟩
    case mul => exact ofNat_toNat_mul _ _ ▸ hdone _ _ _ _ rfl hregs
    case mla => exact ofNat_toNat_mul_add _ _ _ ▸ hdone _ _ _ _ rfl hregs
  intro i bad res m hexec hregs
  rw [conditional_pass hcond, checked_of_allowed hregs] at hexec
  obtain ⟨t, hnext, hpost⟩ := multiply_done sf rd res m s
  exact ⟨t, hexec.trans hnext, hpost⟩

end Sys2Proof.Machine

/-! What a branch to a computed target leaves (R66, R370 to R372): the pc and the link of B and BL, and the target as a number
modulo 2^32. -/

namespace Sys2Proof.Machine

/-! ## The target -/

/-- An immediate with zeros below it, sign-extended, is the signed immediate times a power of 2 (R370). -/
theorem signExtend_append_zero {w n : Nat} (imm : BitVec w) :
    (imm ++ 0#n).signExtend 32 = BitVec.ofInt 32 (2 ^ n * imm.toInt) := by
  rw [BitVec.signExtend, BitVec.toInt_append_zero]

/-- A pc with its read-ahead and a signed offset, as a number modulo 2^32. -/
theorem add_ofNat_add_ofInt (pc : Word) (k : Nat) (off : Int) :
    pc + BitVec.ofNat 32 k + BitVec.ofInt 32 off = BitVec.ofInt 32 (pc.toNat + k + off) := by
  rw [BitVec.ofInt_add, BitVec.ofInt_add, BitVec.ofInt_natCast, BitVec.ofInt_natCast, BitVec.ofNat_toNat, BitVec.setWidth_eq]

theorem branchTarget_eq_ofInt (imm : BitVec 24) (s : State) :
    branchTarget imm s = BitVec.ofInt 32 (s.pc.toNat + 8 + 4 * imm.toInt) := by
  rw [branchTarget, signExtend_append_zero]
  exact add_ofNat_add_ofInt s.pc 8 _

/-! ## Alignment in ARM state -/

/-- The converse of `alignWord_mod`: a word is its upper 30 bits and the two bits that alignment clears. -/
theorem alignWord_eq_self_iff (a : Word) : alignWord a = a ↔ a.toNat % 4 = 0 := by
  refine ⟨fun h => h ▸ alignWord_mod a, fun h => ?_⟩
  have hlow : a &&& 3#32 = 0 := BitVec.eq_of_toNat_eq (by
    rw [BitVec.toNat_and]
    exact (Nat.and_two_pow_sub_one_eq_mod _ 2).trans h)
  calc alignWord a
    _ = a &&& 0xFFFFFFFC#32 ||| a &&& 3#32 := by rw [hlow]; exact (BitVec.or_zero).symm
    _ = a := by rw [← BitVec.and_or_distrib_left]; exact BitVec.and_allOnes

theorem alignPc_of_arm {s : State} (hthumb : s.thumb = false) (v : Word) : s.alignPc v = alignWord v := by
  rw [State.alignPc, hthumb]; rfl

/-- From an aligned pc the target of B and BL is aligned (R66, R370). -/
theorem alignPc_branchTarget {s : State} (hthumb : s.thumb = false) (hpc : s.alignPc s.pc = s.pc) (imm : BitVec 24) :
    s.alignPc (branchTarget imm s) = branchTarget imm s := by
  rw [alignPc_of_arm hthumb, alignWord_eq_self_iff] at hpc ⊢
  rw [branchTarget_eq_ofInt, BitVec.toNat_ofInt]
  omega

/-! ## The branch -/

/-- A taken branch changes nothing but the pc and the cycle clock (R66, R739). -/
theorem branchTo_done (v : Word) (s : State) :
    ∃ t, branchTo v s = .next t ∧ t.pc = s.alignPc v ∧ t.cpsr = s.cpsr ∧ t.regs = s.regs := by
  refine ⟨_, rfl, ?_, ?_, ?_⟩
  · simpa using State.alignPc_congr (State.chargeCode_cpsr s .S) v
  · simp
  · simp

/-- A visible register other than R15 is a function of the register file and the CPSR (R55). -/
theorem readReg_congr_of_ne_pc {s t : State} (hregs : t.regs = s.regs) (hcpsr : t.cpsr = s.cpsr) {k : Reg} (hk : k ≠ 15) :
    t.readReg k = s.readReg k := by
  rw [State.readReg, State.readBank, State.mode_congr (congrArg psrM hcpsr)]
  exact State.readPhys_congr hregs (by simpa using hk)

/-- Settles O34: B is a branch from the state itself, BL one from the state with R14 written, and the target needs no alignment. -/
theorem armBranches : Obligations.ArmBranches := by
  intro cond imm s hcond hthumb hpc target
  have htarget : s.alignPc (branchTarget imm s) = target :=
    (alignPc_branchTarget hthumb hpc imm).trans (branchTarget_eq_ofInt imm s)
  constructor
  case left =>
    obtain ⟨t, hnext, htpc, hcpsr, hregs⟩ := branchTo_done (branchTarget imm s) s
    exact ⟨t, (conditional_pass hcond).trans hnext, htpc.trans htarget, hcpsr, hregs⟩
  case right =>
    let linked := s.writeReg 14 (s.pc + 4)
    have hlinked : linked.cpsr = s.cpsr := State.writeReg_cpsr s 14 _
    obtain ⟨t, hnext, htpc, hcpsr, hregs⟩ := branchTo_done (branchTarget imm s) linked
    refine ⟨t, (conditional_pass hcond).trans hnext, ?pc, hcpsr.trans hlinked, ?link⟩
    case pc => rw [htpc, State.alignPc_congr hlinked, htarget]
    case link => rw [readReg_congr_of_ne_pc hregs hcpsr (by decide), State.readReg_writeReg _ _ _ _ (by decide), if_pos rfl]

end Sys2Proof.Machine

/-! What taking an exception leaves (R610, R614): the entry at any mode that has an SPSR, and SWI, which adds to it charges of the
cycle clock alone. -/

namespace Sys2Proof.Machine

/-! ## What an entry writes -/

/-- A read of an SPSR after a write of one (R60, R61). -/
theorem spsrOf_writeSpsrOf (s : State) (m k : Mode) (v : Word) :
    (s.writeSpsrOf m v).spsrOf k = if m = k then (s.spsrOf k).map fun _ => v &&& psrImplemented else s.spsrOf k := by
  cases m <;> cases k <;> simp [State.writeSpsrOf, State.spsrOf, BitVec.and_assoc]

section TakeException
variable (s : State) (m : Mode) (vector lr : Word) (setF : Bool)

theorem takeException_cpsr :
    (s.takeException m vector lr setF).cpsr =
      psrWithControl s.readCpsr true (setF || psrF s.readCpsr) false m.bits &&& psrImplemented := by
  simp [State.takeException]

theorem takeException_regs : (s.takeException m vector lr setF).regs = (s.writeBank m 14 lr).regs := by
  cases m <;> rfl

/-- Of the general registers an entry writes R14 of the new mode alone (R610). -/
theorem readPhys_takeException {r : PhysReg} (hr : r ≠ .pc) :
    (s.takeException m vector lr setF).readPhys r = if phys 14 m = r then lr else s.readPhys r := by
  rw [State.readPhys_congr (takeException_regs ..) hr, State.writeBank, State.readPhys_writePhys _ _ _ _ hr]

/-- Of the SPSRs an entry writes that of the new mode alone, with the old CPSR (R610). -/
theorem spsrOf_takeException (k : Mode) :
    (s.takeException m vector lr setF).spsrOf k =
      if m = k then (s.spsrOf k).map fun _ => s.cpsr &&& psrImplemented else s.spsrOf k := by
  have hkept : (s.takeException m vector lr setF).spsrOf k = (s.writeSpsrOf m s.readCpsr).spsrOf k := by
    cases m <;> cases k <;> rfl
  rw [hkept, spsrOf_writeSpsrOf, State.readCpsr, BitVec.and_assoc, BitVec.and_self]

/-- The entry to any mode that has an SPSR (R610, R614). -/
theorem takeException_entered (hspsr : (s.spsrOf m).isSome = true) :
    EnteredException s (s.takeException m vector lr setF) m vector lr setF where
  pc := rfl
  mode := State.mode_takeException s m vector lr setF
  link := by rw [State.readBank, readPhys_takeException _ _ _ _ _ (by simp), if_pos rfl]
  saved := by
    obtain ⟨p, hp⟩ := Option.isSome_iff_exists.1 hspsr
    rw [spsrOf_takeException, if_pos rfl, hp, Option.map_some]
  flags := by simp [SameFlags, FlagsAre, State.flagN, State.flagZ, State.flagC, State.flagV, takeException_cpsr, State.readCpsr]
  irqMasked := by simp [takeException_cpsr]
  fiqMasked := by simp [takeException_cpsr, State.readCpsr]
  arm := by simp [State.thumb, takeException_cpsr]
  registers r hr hlink := by rw [readPhys_takeException _ _ _ _ _ hr, if_neg hlink.symm]
  spsrs k hk := by rw [spsrOf_takeException, if_neg hk.symm]
  waitcnt := by simp [State.takeException]

end TakeException

/-! ## Charges around an entry -/

/-- What the cycle clock holds before and after an entry is no part of what it leaves (R130). -/
theorem EnteredException.congr_timing {s s' t t' : State} {m : Mode} {vector link : Word} {setF : Bool}
    (h : EnteredException s t m vector link setF) (hs : SameButTiming s s') (ht : SameButTiming t t') :
    EnteredException s' t' m vector link setF := by
  rw [hs, ht]
  exact ⟨h.pc, h.mode, h.link, h.saved, h.flags, h.irqMasked, h.fiqMasked, h.arm, h.registers, h.spsrs, h.waitcnt⟩

/-- SWI in either state: the link is the next instruction of the set in force (R611). -/
theorem softwareInterrupt_entered (s : State) :
    ∃ t, softwareInterrupt s = .next t ∧ EnteredException s t .svc 0x08 (s.pc + s.ilen) false ∧ t.mem = s.mem := by
  refine ⟨_, rfl, ?entered, ?mem⟩
  case entered =>
    exact (takeException_entered (s.chargeCode .S) .svc 0x08 (s.pc + s.ilen) false rfl).congr_timing rfl rfl
  case mem => simp [State.takeSwi, State.takeException]

/-- Settles O36: both SWI are the one entry, with an instruction length of 4 in ARM state and of 2 in Thumb state. -/
theorem softwareInterrupts : Obligations.SoftwareInterrupts := by
  intro s
  obtain ⟨t, hnext, hentered, hmem⟩ := softwareInterrupt_entered s
  refine ⟨fun cond comment hcond harm => ?arm, fun comment hthumb => ?thumb⟩
  case arm =>
    have hilen : s.ilen = 4 := by rw [State.ilen, harm]; rfl
    exact ⟨t, (conditional_pass hcond).trans hnext, hilen ▸ hentered, hmem⟩
  case thumb =>
    have hilen : s.ilen = 2 := by rw [State.ilen, hthumb]; rfl
    exact ⟨t, hnext, hilen ▸ hentered, hmem⟩

end Sys2Proof.Machine

/-! The decoder undoes the encoder (R150 to R192): a field of a word that is written out field by field, the entry of the ARM
table and the pattern of the Thumb walk by the fields of the word, and the parsers family by family. -/

namespace Sys2Proof

/-! ## Fields of an encoding -/

@[simp] theorem Cond.ofBits_bits (c : Cond) : Cond.ofBits c.bits = c := by cases c <;> rfl

@[simp] theorem ShiftType.ofBits_bits (ty : ShiftType) : ShiftType.ofBits ty.bits = ty := by cases ty <;> rfl

@[simp] theorem PsrMask.ofBits_bits (m : PsrMask) : PsrMask.ofBits m.bits = m := by
  obtain ⟨f, s, x, c⟩ := m
  cases f <;> cases s <;> cases x <;> cases c <;> rfl

@[simp] theorem regOf_reg4 (r : Reg) : regOf (reg4 r) = r := rfl

@[simp] theorem loOf_lo3 (r : LoReg) : loOf (lo3 r) = r := rfl

section Append
variable {v w : Nat} {x : BitVec v} {y : BitVec w}

theorem field_append_low {start len : Nat} (h : start + len ≤ w) :
    (x ++ y).extractLsb' start len = y.extractLsb' start len := BitVec.extractLsb'_append_eq_of_add_le h

theorem field_append_high {start len : Nat} (h : w ≤ start) :
    (x ++ y).extractLsb' start len = x.extractLsb' (start - w) len := BitVec.extractLsb'_append_eq_of_le h

theorem bit_append_low {i : Nat} (h : i < w) : (x ++ y).getLsbD i = y.getLsbD i := by
  rw [BitVec.getLsbD_append, if_pos h]

theorem bit_append_high {i : Nat} (h : w ≤ i) : (x ++ y).getLsbD i = x.getLsbD (i - w) := by
  rw [BitVec.getLsbD_append, if_neg (Nat.not_lt.2 h)]

end Append

/-- A field of a field is a field. -/
theorem field_of_field {w a b c d : Nat} (x : BitVec w) (h : c + d ≤ b) :
    (x.extractLsb' a b).extractLsb' c d = x.extractLsb' (a + c) d := by
  refine BitVec.eq_of_getLsbD_eq fun i hi => ?_
  simp only [BitVec.getLsbD_extractLsb', hi, decide_true, Bool.true_and]
  rw [decide_eq_true (by omega), Bool.true_and, Nat.add_assoc]

theorem bit_of_field {w a b i : Nat} (x : BitVec w) (h : i < b) : (x.extractLsb' a b).getLsbD i = x.getLsbD (a + i) := by
  rw [BitVec.getLsbD_extractLsb', decide_eq_true h, Bool.true_and]

/-! ## The entries of the ARM table -/

section ArmTable
variable {hi : BitVec 8} {lo : BitVec 4}

theorem armFormat_group000 (hgroup : hi.extractLsb' 5 3 = 0b000#3) : armFormat hi lo = armFormat000 hi lo := by
  simp only [armFormat, hgroup]; rfl

/-- A register operand with a clear bit in `lo[3]` or `lo[0]`, and no test without S (R160). -/
theorem armFormat_register (hgroup : hi.extractLsb' 5 3 = 0b000#3) (hslot : lo.getLsbD 3 = false ∨ lo.getLsbD 0 = false)
    (htest : hi.extractLsb' 3 2 = 0b10#2 → hi.getLsbD 0 = true) : armFormat hi lo = .dataProcessing := by
  have h9 : lo ≠ 0b1001#4 := by rintro rfl; simp at hslot
  have hlo : ¬ (lo.getLsbD 3 = true ∧ lo.getLsbD 0 = true) := by rcases hslot with h | h <;> simp [-BitVec.getLsbD_eq_getElem, h]
  rw [armFormat_group000 hgroup, armFormat000, if_neg h9, if_neg hlo]
  exact if_neg fun h => Bool.false_ne_true (h.2.symm.trans (htest h.1))

theorem armFormat_immediate (hgroup : hi.extractLsb' 5 3 = 0b001#3)
    (htest : hi.extractLsb' 3 2 = 0b10#2 → hi.getLsbD 0 = true) : armFormat hi lo = .dataProcessing := by
  simp only [armFormat, hgroup]
  exact if_neg fun h => Bool.false_ne_true (h.2.symm.trans (htest h.1))

theorem armFormat_msrImmediate (hgroup : hi.extractLsb' 5 3 = 0b001#3) (htest : hi.extractLsb' 3 2 = 0b10#2)
    (hs : hi.getLsbD 0 = false) (hmsr : hi.getLsbD 1 = true) : armFormat hi lo = .msrImmediate := by
  simp only [armFormat, hgroup]
  exact (if_pos ⟨htest, hs⟩).trans (if_pos hmsr)

/-- The place of the tests without S, with `lo = 0000` (R160). -/
theorem armFormat_control (hgroup : hi.extractLsb' 3 5 = 0b00010#5) (hs : hi.getLsbD 0 = false) (hlo : lo = 0b0000#4) :
    armFormat hi lo = if hi.getLsbD 1 then .msrRegister else .mrs := by
  subst hlo; revert hgroup hs; revert hi; decide

theorem armFormat_branchExchange (hhi : hi = 0b00010010#8) (hlo : lo = 0b0001#4) : armFormat hi lo = .branchExchange := by
  subst hhi hlo; decide

theorem armFormat_multiply (hgroup : hi.extractLsb' 2 6 = 0b000000#6) (hlo : lo = 0b1001#4) :
    armFormat hi lo = .multiply := by
  subst hlo; revert hgroup; revert hi; decide

theorem armFormat_multiplyLong (hgroup : hi.extractLsb' 3 5 = 0b00001#5) (hlo : lo = 0b1001#4) :
    armFormat hi lo = .multiplyLong := by
  subst hlo; revert hgroup; revert hi; decide

theorem armFormat_singleDataSwap (hgroup : hi.extractLsb' 3 5 = 0b00010#5) (hlow : hi.extractLsb' 0 2 = 0b00#2)
    (hlo : lo = 0b1001#4) : armFormat hi lo = .singleDataSwap := by
  subst hlo; revert hgroup hlow; revert hi; decide

/-- The halfword slots: a load, or the store of an unsigned halfword; pre-indexed, or without write-back (R160, R170). -/
theorem armFormat_halfword (hgroup : hi.extractLsb' 5 3 = 0b000#3)
    (hslot : lo = 0b1011#4 ∨ hi.getLsbD 0 = true ∧ (lo = 0b1101#4 ∨ lo = 0b1111#4))
    (hindex : hi.getLsbD 4 = true ∨ hi.getLsbD 1 = false) : armFormat hi lo = .halfwordTransfer := by
  have hback : ¬ (hi.getLsbD 4 = false ∧ hi.getLsbD 1 = true) := by
    rcases hindex with h | h <;> simp [-BitVec.getLsbD_eq_getElem, h]
  rw [armFormat_group000 hgroup, armFormat000]
  obtain rfl | ⟨hload, rfl | rfl⟩ := hslot
  all_goals rw [if_neg (by decide), if_pos (by decide), if_neg (by simp_all), if_neg hback]

/-- An immediate offset, or a register offset with `lo[0]` clear (R160). -/
theorem armFormat_single (hgroup : hi.extractLsb' 5 3 = 0b010#3 ∨ hi.extractLsb' 5 3 = 0b011#3 ∧ lo.getLsbD 0 = false) :
    armFormat hi lo = .singleDataTransfer := by
  obtain h | ⟨h, hlo⟩ := hgroup
  · simp only [armFormat, h]; rfl
  · simp only [armFormat, h]
    exact if_neg (by simpa using hlo)

theorem armFormat_block (hgroup : hi.extractLsb' 5 3 = 0b100#3) : armFormat hi lo = .blockDataTransfer := by
  simp only [armFormat, hgroup]; rfl

theorem armFormat_branch (hgroup : hi.extractLsb' 5 3 = 0b101#3) : armFormat hi lo = .branch := by
  simp only [armFormat, hgroup]; rfl

theorem armFormat_softwareInterrupt (hgroup : hi.extractLsb' 5 3 = 0b111#3) (hswi : hi.getLsbD 4 = true) :
    armFormat hi lo = .softwareInterrupt := by
  simp only [armFormat, hgroup]
  exact if_pos hswi

end ArmTable

/-! ## The words of a format -/

section DecodeArm
variable {w : Word}

theorem decode_dataProcessing (h : armFormat (w.extractLsb' 20 8) (w.extractLsb' 4 4) = .dataProcessing) :
    decode (.arm w) = .instr (parseDataProcessing w) := by
  simp only [decode, decodeArm, h]

theorem decode_multiply (h : armFormat (w.extractLsb' 20 8) (w.extractLsb' 4 4) = .multiply) :
    decode (.arm w) = .instr (parseMultiply w) := by
  simp only [decode, decodeArm, h]

theorem decode_multiplyLong (h : armFormat (w.extractLsb' 20 8) (w.extractLsb' 4 4) = .multiplyLong) :
    decode (.arm w) = .instr (parseMultiplyLong w) := by
  simp only [decode, decodeArm, h]

theorem decode_singleDataSwap (h : armFormat (w.extractLsb' 20 8) (w.extractLsb' 4 4) = .singleDataSwap) :
    decode (.arm w) = .instr (parseSwap w) := by
  simp only [decode, decodeArm, h]

theorem decode_halfword (h : armFormat (w.extractLsb' 20 8) (w.extractLsb' 4 4) = .halfwordTransfer) :
    decode (.arm w) = .instr (parseHalfword w) := by
  simp only [decode, decodeArm, h]

theorem decode_single (h : armFormat (w.extractLsb' 20 8) (w.extractLsb' 4 4) = .singleDataTransfer) :
    decode (.arm w) = .instr (parseSingle w) := by
  simp only [decode, decodeArm, h]

theorem decode_block (h : armFormat (w.extractLsb' 20 8) (w.extractLsb' 4 4) = .blockDataTransfer) :
    decode (.arm w) = .instr (parseBlock w) := by
  simp only [decode, decodeArm, h]

theorem decode_mrs (h : armFormat (w.extractLsb' 20 8) (w.extractLsb' 4 4) = .mrs) :
    decode (.arm w) = .instr (.mrs (Cond.ofBits (w.extractLsb' 28 4)) (w.getLsbD 22) (Code.regAt w 12)) := by
  simp only [decode, decodeArm, h]

theorem decode_msrRegister (h : armFormat (w.extractLsb' 20 8) (w.extractLsb' 4 4) = .msrRegister) :
    decode (.arm w) = .instr (.msrReg (Cond.ofBits (w.extractLsb' 28 4)) (w.getLsbD 22) (PsrMask.ofBits (w.extractLsb' 16 4))
      (Code.regAt w 0)) := by
  simp only [decode, decodeArm, h]

theorem decode_msrImmediate (h : armFormat (w.extractLsb' 20 8) (w.extractLsb' 4 4) = .msrImmediate) :
    decode (.arm w) = .instr (.msrImm (Cond.ofBits (w.extractLsb' 28 4)) (w.getLsbD 22) (PsrMask.ofBits (w.extractLsb' 16 4))
      (w.extractLsb' 8 4) (w.extractLsb' 0 8)) := by
  simp only [decode, decodeArm, h]

theorem decode_branchExchange (h : armFormat (w.extractLsb' 20 8) (w.extractLsb' 4 4) = .branchExchange) :
    decode (.arm w) = .instr (.bx (Cond.ofBits (w.extractLsb' 28 4)) (Code.regAt w 0)) := by
  simp only [decode, decodeArm, h]

theorem decode_softwareInterrupt (h : armFormat (w.extractLsb' 20 8) (w.extractLsb' 4 4) = .softwareInterrupt) :
    decode (.arm w) = .instr (.swi (Cond.ofBits (w.extractLsb' 28 4)) (w.extractLsb' 0 24)) := by
  simp only [decode, decodeArm, h]

theorem decode_branch (h : armFormat (w.extractLsb' 20 8) (w.extractLsb' 4 4) = .branch) :
    decode (.arm w) = .instr (if w.getLsbD 24 then .bl (Cond.ofBits (w.extractLsb' 28 4)) (w.extractLsb' 0 24)
      else .b (Cond.ofBits (w.extractLsb' 28 4)) (w.extractLsb' 0 24)) := by
  simp only [decode, decodeArm, h]

end DecodeArm

/-! ## Data processing -/

/-- The opcode field of an operation (R260). -/
def AluOp.bits : AluOp → BitVec 4
  | .and => 0b0000#4 | .eor => 0b0001#4 | .sub => 0b0010#4 | .rsb => 0b0011#4
  | .add => 0b0100#4 | .adc => 0b0101#4 | .sbc => 0b0110#4 | .rsc => 0b0111#4
  | .tst => 0b1000#4 | .teq => 0b1001#4 | .cmp => 0b1010#4 | .cmn => 0b1011#4
  | .orr => 0b1100#4 | .mov => 0b1101#4 | .bic => 0b1110#4 | .mvn => 0b1111#4

@[simp] theorem AluOp.ofBits_bits (op : AluOp) : AluOp.ofBits op.bits = op := by cases op <;> rfl

/-- The S bit of an operation: a test is encoded with S = 1 (R267). -/
def AluOp.sBit (op : AluOp) (sf : Bool) : Bool :=
  match op with
  | .tst | .teq | .cmp | .cmn => true
  | _ => sf

/-- The place of an operation among the tests has S set (R160, R267). -/
theorem AluOp.sBit_of_test {op : AluOp} (sf : Bool) (h : op.bits.extractLsb' 2 2 = 0b10#2) : op.sBit sf = true := by
  revert h; cases op <;> simp [AluOp.bits, AluOp.sBit]

theorem append_opcode (c : BitVec 4) (a : BitVec 7) (b : BitVec 1) : c ++ a ++ b = (c ++ (a ++ b) : BitVec 12) := by
  rw [BitVec.append_assoc]; rfl

section Encode
variable (op : AluOp) (cond : Cond) (sf : Bool) (rn rd rs : Reg) (amount : BitVec 5) (ty : ShiftType) (rm : Reg)
  (rotate : BitVec 4) (imm : BitVec 8)

theorem encode_dpImm : encode (dpImm op cond sf rn rd rotate imm) =
    .arm (cond.bits ++ ((0b001#3 ++ op.bits : BitVec 7) ++ bit (op.sBit sf)) ++ reg4 rn ++ reg4 rd ++ rotate ++ imm) := by
  cases op
  case tst | teq | cmp | cmn => simp only [dpImm, encode, AluOp.bits, AluOp.sBit]; rfl
  all_goals rw [← append_opcode]; rfl

theorem encode_dpShimm : encode (dpShimm op cond sf rn rd amount ty rm) =
    .arm (cond.bits ++ ((0b000#3 ++ op.bits : BitVec 7) ++ bit (op.sBit sf)) ++ reg4 rn ++ reg4 rd ++ amount ++ ty.bits ++
      0b0#1 ++ reg4 rm) := by
  cases op
  case tst | teq | cmp | cmn => simp only [dpShimm, encode, AluOp.bits, AluOp.sBit]; rfl
  all_goals rw [← append_opcode]; rfl

theorem encode_dpShreg : encode (dpShreg op cond sf rn rd rs ty rm) =
    .arm (cond.bits ++ ((0b000#3 ++ op.bits : BitVec 7) ++ bit (op.sBit sf)) ++ reg4 rn ++ reg4 rd ++ reg4 rs ++ 0b0#1 ++
      ty.bits ++ 0b1#1 ++ reg4 rm) := by
  cases op
  case tst | teq | cmp | cmn => simp only [dpShreg, encode, AluOp.bits, AluOp.sBit]; rfl
  all_goals rw [← append_opcode]; rfl

theorem dpImm_sBit : dpImm op cond (op.sBit sf) rn rd rotate imm = dpImm op cond sf rn rd rotate imm := by
  cases op <;> rfl

theorem dpShimm_sBit : dpShimm op cond (op.sBit sf) rn rd amount ty rm = dpShimm op cond sf rn rd amount ty rm := by
  cases op <;> rfl

theorem dpShreg_sBit : dpShreg op cond (op.sBit sf) rn rd rs ty rm = dpShreg op cond sf rn rd rs ty rm := by
  cases op <;> rfl

theorem decode_encode_dpImm :
    decode (encode (dpImm op cond sf rn rd rotate imm)) = .instr (dpImm op cond sf rn rd rotate imm) := by
  rw [encode_dpImm, decode_dataProcessing (armFormat_immediate ?_ fun h => ?_)]
  · simp (disch := decide) only [parseDataProcessing, Code.regAt, field_append_low, field_append_high, bit_append_low,
      bit_append_high]
    simp [bit, dpImm_sBit]
  · simp (disch := decide) only [field_of_field, field_append_low, field_append_high]
    simp
  · simp (disch := decide) only [field_of_field, bit_of_field, field_append_low, field_append_high, bit_append_low] at h ⊢
    simpa [bit] using AluOp.sBit_of_test sf h

theorem decode_encode_dpShimm :
    decode (encode (dpShimm op cond sf rn rd amount ty rm)) = .instr (dpShimm op cond sf rn rd amount ty rm) := by
  rw [encode_dpShimm, decode_dataProcessing (armFormat_register ?_ (.inr ?_) fun h => ?_)]
  · simp (disch := decide) only [parseDataProcessing, Code.regAt, field_append_low, field_append_high, bit_append_low,
      bit_append_high]
    simp [bit, dpShimm_sBit]
  · simp (disch := decide) only [field_of_field, field_append_low, field_append_high]
    simp
  · simp (disch := decide) only [bit_of_field, bit_append_low, bit_append_high]
    simp
  · simp (disch := decide) only [field_of_field, bit_of_field, field_append_low, field_append_high, bit_append_low] at h ⊢
    simpa [bit] using AluOp.sBit_of_test sf h

theorem decode_encode_dpShreg :
    decode (encode (dpShreg op cond sf rn rd rs ty rm)) = .instr (dpShreg op cond sf rn rd rs ty rm) := by
  rw [encode_dpShreg, decode_dataProcessing (armFormat_register ?_ (.inl ?_) fun h => ?_)]
  · simp (disch := decide) only [parseDataProcessing, Code.regAt, field_append_low, field_append_high, bit_append_low,
      bit_append_high]
    simp [bit, dpShreg_sBit]
  · simp (disch := decide) only [field_of_field, field_append_low, field_append_high]
    simp
  · simp (disch := decide) only [bit_of_field, bit_append_low, bit_append_high]
    simp
  · simp (disch := decide) only [field_of_field, bit_of_field, field_append_low, field_append_high, bit_append_low] at h ⊢
    simpa [bit] using AluOp.sBit_of_test sf h

end Encode

/-! ## Single transfers -/

section Single
variable (cond : Cond) (p u w : Bool) (rn rd : Reg) (imm : BitVec 12) (amount : BitVec 5) (ty : ShiftType) (rm : Reg)

theorem decode_encode_singleImm (hindex : (p || !w) = true) :
    ∀ i ∈ ([.strImm cond p u w rn rd imm, .ldrImm cond p u w rn rd imm, .strbImm cond p u w rn rd imm,
      .ldrbImm cond p u w rn rd imm] : List Instr), decode (encode i) = .instr i := by
  simp only [List.forall_mem_cons, List.not_mem_nil, false_implies, implies_true, and_true]
  and_intros
  all_goals
    rw [encode, decode_single (armFormat_single (.inl ?_))]
    · simp (disch := decide) only [parseSingle, Code.regAt, field_append_low, field_append_high, bit_append_low, bit_append_high]
      cases p <;> simp_all [bit]
    · simp (disch := decide) only [field_of_field, field_append_low, field_append_high]
      simp

theorem decode_encode_singleReg (hindex : (p || !w) = true) :
    ∀ i ∈ ([.strReg cond p u w rn rd amount ty rm, .ldrReg cond p u w rn rd amount ty rm,
      .strbReg cond p u w rn rd amount ty rm,
      .ldrbReg cond p u w rn rd amount ty rm] : List Instr), decode (encode i) = .instr i := by
  simp only [List.forall_mem_cons, List.not_mem_nil, false_implies, implies_true, and_true]
  and_intros
  all_goals
    rw [encode, decode_single (armFormat_single (.inr ⟨?_, ?_⟩))]
    · simp (disch := decide) only [parseSingle, Code.regAt, field_append_low, field_append_high, bit_append_low, bit_append_high]
      cases p <;> simp_all [bit]
    all_goals
      simp (disch := decide) only [field_of_field, bit_of_field, field_append_low, field_append_high, bit_append_low]
      simp

theorem decode_encode_singleTImm :
    ∀ i ∈ ([.strtImm cond u rn rd imm, .ldrtImm cond u rn rd imm, .strbtImm cond u rn rd imm,
      .ldrbtImm cond u rn rd imm] : List Instr), decode (encode i) = .instr i := by
  simp only [List.forall_mem_cons, List.not_mem_nil, false_implies, implies_true, and_true]
  and_intros
  all_goals
    rw [encode, decode_single (armFormat_single (.inl ?_))]
    · simp (disch := decide) only [parseSingle, Code.regAt, field_append_low, field_append_high, bit_append_low, bit_append_high]
      simp [bit]
    · simp (disch := decide) only [field_of_field, field_append_low, field_append_high]
      simp

theorem decode_encode_singleTReg :
    ∀ i ∈ ([.strtReg cond u rn rd amount ty rm, .ldrtReg cond u rn rd amount ty rm, .strbtReg cond u rn rd amount ty rm,
      .ldrbtReg cond u rn rd amount ty rm] : List Instr), decode (encode i) = .instr i := by
  simp only [List.forall_mem_cons, List.not_mem_nil, false_implies, implies_true, and_true]
  and_intros
  all_goals
    rw [encode, decode_single (armFormat_single (.inr ⟨?_, ?_⟩))]
    · simp (disch := decide) only [parseSingle, Code.regAt, field_append_low, field_append_high, bit_append_low, bit_append_high]
      simp [bit]
    all_goals
      simp (disch := decide) only [field_of_field, bit_of_field, field_append_low, field_append_high, bit_append_low]
      simp

end Single

/-! ## Halfword and block transfers -/

/-- The two halves of the offset of a halfword transfer (R156). -/
theorem offset_halves (imm : BitVec 8) : (imm.extractLsb' 4 4 ++ imm.extractLsb' 0 4 : BitVec 8) = imm :=
  BitVec.extractLsb'_append_extractLsb' (w := 4) (len := 4)

section Transfers
variable (cond : Cond) (p u w ub : Bool) (rn rd rm : Reg) (imm : BitVec 8) (list : BitVec 16)

theorem decode_encode_halfwordImm (hindex : (p || !w) = true) :
    ∀ i ∈ ([.strhImm cond p u w rn rd imm, .ldrhImm cond p u w rn rd imm, .ldrsbImm cond p u w rn rd imm,
      .ldrshImm cond p u w rn rd imm] : List Instr), decode (encode i) = .instr i := by
  simp only [List.forall_mem_cons, List.not_mem_nil, false_implies, implies_true, and_true]
  and_intros
  all_goals
    rw [encode, decode_halfword (armFormat_halfword ?_ ?_ ?_)]
    · simp (disch := decide) only [parseHalfword, Code.regAt, field_append_low, field_append_high, bit_append_low,
        bit_append_high]
      simp [bit, offset_halves]
    all_goals
      simp (disch := decide) only [field_of_field, bit_of_field, field_append_low, field_append_high, bit_append_low,
        bit_append_high]
      simp_all [bit]

theorem decode_encode_halfwordReg (hindex : (p || !w) = true) :
    ∀ i ∈ ([.strhReg cond p u w rn rd rm, .ldrhReg cond p u w rn rd rm, .ldrsbReg cond p u w rn rd rm,
      .ldrshReg cond p u w rn rd rm] : List Instr), decode (encode i) = .instr i := by
  simp only [List.forall_mem_cons, List.not_mem_nil, false_implies, implies_true, and_true]
  and_intros
  all_goals
    rw [encode, decode_halfword (armFormat_halfword ?_ ?_ ?_)]
    · simp (disch := decide) only [parseHalfword, Code.regAt, field_append_low, field_append_high, bit_append_low,
        bit_append_high]
      simp [bit]
    all_goals
      simp (disch := decide) only [field_of_field, bit_of_field, field_append_low, field_append_high, bit_append_low,
        bit_append_high]
      simp_all [bit]

theorem decode_encode_block :
    ∀ i ∈ ([.ldmia cond ub w rn list, .ldmib cond ub w rn list, .ldmda cond ub w rn list, .ldmdb cond ub w rn list,
      .stmia cond ub w rn list, .stmib cond ub w rn list, .stmda cond ub w rn list,
      .stmdb cond ub w rn list] : List Instr), decode (encode i) = .instr i := by
  simp only [List.forall_mem_cons, List.not_mem_nil, false_implies, implies_true, and_true]
  and_intros
  all_goals
    rw [encode, decode_block (armFormat_block ?_)]
    · simp (disch := decide) only [parseBlock, Code.regAt, field_append_low, field_append_high, bit_append_low, bit_append_high]
      simp [bit]
    · simp (disch := decide) only [field_of_field, field_append_low, field_append_high]
      simp

end Transfers

/-! ## Multiplies, swaps, status registers and branches -/

section Others
variable (cond : Cond) (sf spsr : Bool) (rd rn rs rm rdHi rdLo : Reg) (mask : PsrMask) (rotate : BitVec 4) (imm : BitVec 8)
  (offset : BitVec 24)

theorem decode_encode_multiply :
    ∀ i ∈ ([.mul cond sf rd rs rm, .mla cond sf rd rn rs rm] : List Instr), decode (encode i) = .instr i := by
  simp only [List.forall_mem_cons, List.not_mem_nil, false_implies, implies_true, and_true]
  and_intros
  all_goals
    rw [encode, decode_multiply (armFormat_multiply ?_ ?_)]
    · simp (disch := decide) only [parseMultiply, Code.regAt, field_append_low, field_append_high, bit_append_low,
        bit_append_high]
      simp [bit]
    all_goals
      simp (disch := decide) only [field_of_field, field_append_low, field_append_high]
      simp

theorem decode_encode_multiplyLong :
    ∀ i ∈ ([.umull cond sf rdHi rdLo rs rm, .umlal cond sf rdHi rdLo rs rm, .smull cond sf rdHi rdLo rs rm,
      .smlal cond sf rdHi rdLo rs rm] : List Instr), decode (encode i) = .instr i := by
  simp only [List.forall_mem_cons, List.not_mem_nil, false_implies, implies_true, and_true]
  and_intros
  all_goals
    rw [encode, decode_multiplyLong (armFormat_multiplyLong ?_ ?_)]
    · simp (disch := decide) only [parseMultiplyLong, Code.regAt, field_append_low, field_append_high, bit_append_low,
        bit_append_high]
      simp [bit]
    all_goals
      simp (disch := decide) only [field_of_field, field_append_low, field_append_high]
      simp

theorem decode_encode_swap :
    ∀ i ∈ ([.swp cond rn rd rm, .swpb cond rn rd rm] : List Instr), decode (encode i) = .instr i := by
  simp only [List.forall_mem_cons, List.not_mem_nil, false_implies, implies_true, and_true]
  and_intros
  all_goals
    rw [encode, decode_singleDataSwap (armFormat_singleDataSwap ?_ ?_ ?_)]
    · simp (disch := decide) only [parseSwap, Code.regAt, field_append_low, field_append_high, bit_append_low, bit_append_high]
      simp
    all_goals
      simp (disch := decide) only [field_of_field, field_append_low, field_append_high]
      simp

theorem decode_encode_mrs :
    decode (encode (.mrs cond spsr rd)) = .instr (.mrs cond spsr rd) := by
  rw [encode, decode_mrs ((armFormat_control ?_ ?_ ?_).trans (if_neg ?_))]
  · simp (disch := decide) only [Code.regAt, field_append_low, field_append_high, bit_append_low, bit_append_high]
    simp [bit]
  all_goals
    simp (disch := decide) only [field_of_field, bit_of_field, field_append_low, field_append_high, bit_append_low]
    simp

theorem decode_encode_msrReg :
    decode (encode (.msrReg cond spsr mask rm)) = .instr (.msrReg cond spsr mask rm) := by
  rw [encode, decode_msrRegister ((armFormat_control ?_ ?_ ?_).trans (if_pos ?_))]
  · simp (disch := decide) only [Code.regAt, field_append_low, field_append_high, bit_append_low, bit_append_high]
    simp [bit]
  all_goals
    simp (disch := decide) only [field_of_field, bit_of_field, field_append_low, field_append_high, bit_append_low]
    simp

theorem decode_encode_msrImm :
    decode (encode (.msrImm cond spsr mask rotate imm)) = .instr (.msrImm cond spsr mask rotate imm) := by
  rw [encode, decode_msrImmediate (armFormat_msrImmediate ?_ ?_ ?_ ?_)]
  · simp (disch := decide) only [field_append_low, field_append_high, bit_append_low, bit_append_high]
    simp [bit]
  all_goals
    simp (disch := decide) only [field_of_field, bit_of_field, field_append_low, field_append_high, bit_append_low]
    simp

theorem decode_encode_bx :
    decode (encode (.bx cond rm)) = .instr (.bx cond rm) := by
  rw [encode, decode_branchExchange (armFormat_branchExchange ?_ ?_)]
  · simp (disch := decide) only [Code.regAt, field_append_low, field_append_high]
    simp
  all_goals
    simp (disch := decide) only [field_append_low, field_append_high]
    simp

theorem decode_encode_branch :
    ∀ i ∈ ([.b cond offset, .bl cond offset] : List Instr), decode (encode i) = .instr i := by
  simp only [List.forall_mem_cons, List.not_mem_nil, false_implies, implies_true, and_true]
  and_intros
  all_goals
    rw [encode, decode_branch (armFormat_branch ?_)]
    · simp (disch := decide) only [field_append_low, field_append_high, bit_append_low, bit_append_high]
      simp
    · simp (disch := decide) only [field_of_field, field_append_low, field_append_high]
      simp

theorem decode_encode_swi :
    decode (encode (.swi cond offset)) = .instr (.swi cond offset) := by
  rw [encode, decode_softwareInterrupt (armFormat_softwareInterrupt ?_ ?_)]
  · simp (disch := decide) only [field_append_low, field_append_high]
    simp
  all_goals
    simp (disch := decide) only [field_of_field, bit_of_field, field_append_low, field_append_high, bit_append_low,
      bit_append_high]
    simp

end Others

end Sys2Proof

/-! The decoder undoes the encoder on Thumb halfwords (R180, R190). -/

namespace Sys2Proof

/-! ## The format walk by the fixed bits of a format -/

section ThumbWalk
variable {t : Half}

/-- A bit as a field of one bit. -/
theorem getLsbD_eq_true_iff {w : Nat} (x : BitVec w) (i : Nat) : x.getLsbD i = true ↔ x.extractLsb' i 1 = 1#1 := by
  rw [extractLsb'_eq_iff]; simp

theorem getLsbD_eq_false_iff {w : Nat} (x : BitVec w) (i : Nat) : x.getLsbD i = false ↔ x.extractLsb' i 1 = 0#1 := by
  rw [extractLsb'_eq_iff]; simp

theorem thumbFormat_f1 (h1 : t.extractLsb' 13 3 = 0b000#3) (h2 : t.extractLsb' 11 5 ≠ 0b00011#5) : thumbFormat t = .f1 := by
  simp only [thumbFormat, ite_eq_iff, reduceCtorEq, and_false, false_or, or_false, and_true]
  simp only [ne_eq, extractLsb'_eq_iff_toNat, BitVec.reduceToNat, Nat.reducePow] at *
  omega

theorem thumbFormat_f2 (h : t.extractLsb' 11 5 = 0b00011#5) : thumbFormat t = .f2 := by
  simp only [thumbFormat, ite_eq_iff, reduceCtorEq, and_false, or_false, and_true]
  simp only [extractLsb'_eq_iff_toNat, BitVec.reduceToNat, Nat.reducePow] at *
  omega

theorem thumbFormat_f3 (h : t.extractLsb' 13 3 = 0b001#3) : thumbFormat t = .f3 := by
  simp only [thumbFormat, ite_eq_iff, reduceCtorEq, and_false, false_or, or_false, and_true]
  simp only [extractLsb'_eq_iff_toNat, BitVec.reduceToNat, Nat.reducePow] at *
  omega

theorem thumbFormat_f4 (h : t.extractLsb' 10 6 = 0b010000#6) : thumbFormat t = .f4 := by
  simp only [thumbFormat, ite_eq_iff, reduceCtorEq, and_false, false_or, or_false, and_true]
  simp only [extractLsb'_eq_iff_toNat, BitVec.reduceToNat, Nat.reducePow] at *
  omega

theorem thumbFormat_f5 (h : t.extractLsb' 10 6 = 0b010001#6) : thumbFormat t = .f5 := by
  simp only [thumbFormat, ite_eq_iff, reduceCtorEq, and_false, false_or, or_false, and_true]
  simp only [extractLsb'_eq_iff_toNat, BitVec.reduceToNat, Nat.reducePow] at *
  omega

theorem thumbFormat_f6 (h : t.extractLsb' 11 5 = 0b01001#5) : thumbFormat t = .f6 := by
  simp only [thumbFormat, ite_eq_iff, reduceCtorEq, and_false, false_or, or_false, and_true]
  simp only [extractLsb'_eq_iff_toNat, BitVec.reduceToNat, Nat.reducePow] at *
  omega

theorem thumbFormat_f7 (h1 : t.extractLsb' 12 4 = 0b0101#4) (h2 : t.getLsbD 9 = false) : thumbFormat t = .f7 := by
  simp only [thumbFormat, ite_eq_iff, reduceCtorEq, and_false, false_or, or_false, and_true]
  simp only [getLsbD_eq_false_iff, extractLsb'_eq_iff_toNat, BitVec.reduceToNat, Nat.reducePow] at *
  omega

theorem thumbFormat_f8 (h1 : t.extractLsb' 12 4 = 0b0101#4) (h2 : t.getLsbD 9 = true) : thumbFormat t = .f8 := by
  simp only [thumbFormat, ite_eq_iff, reduceCtorEq, and_false, false_or, or_false, and_true]
  simp only [getLsbD_eq_true_iff, getLsbD_eq_false_iff, extractLsb'_eq_iff_toNat, BitVec.reduceToNat, Nat.reducePow] at *
  omega

theorem thumbFormat_f9 (h : t.extractLsb' 13 3 = 0b011#3) : thumbFormat t = .f9 := by
  simp only [thumbFormat, ite_eq_iff, reduceCtorEq, and_false, false_or, or_false, and_true]
  simp only [getLsbD_eq_true_iff, getLsbD_eq_false_iff, extractLsb'_eq_iff_toNat, BitVec.reduceToNat, Nat.reducePow] at *
  omega

theorem thumbFormat_f10 (h : t.extractLsb' 12 4 = 0b1000#4) : thumbFormat t = .f10 := by
  simp only [thumbFormat, ite_eq_iff, reduceCtorEq, and_false, false_or, or_false, and_true]
  simp only [getLsbD_eq_true_iff, getLsbD_eq_false_iff, extractLsb'_eq_iff_toNat, BitVec.reduceToNat, Nat.reducePow] at *
  omega

theorem thumbFormat_f11 (h : t.extractLsb' 12 4 = 0b1001#4) : thumbFormat t = .f11 := by
  simp only [thumbFormat, ite_eq_iff, reduceCtorEq, and_false, false_or, or_false, and_true]
  simp only [getLsbD_eq_true_iff, getLsbD_eq_false_iff, extractLsb'_eq_iff_toNat, BitVec.reduceToNat, Nat.reducePow] at *
  omega

theorem thumbFormat_f12 (h : t.extractLsb' 12 4 = 0b1010#4) : thumbFormat t = .f12 := by
  simp only [thumbFormat, ite_eq_iff, reduceCtorEq, and_false, false_or, or_false, and_true]
  simp only [getLsbD_eq_true_iff, getLsbD_eq_false_iff, extractLsb'_eq_iff_toNat, BitVec.reduceToNat, Nat.reducePow] at *
  omega

theorem thumbFormat_f13 (h : t.extractLsb' 8 8 = 0b10110000#8) : thumbFormat t = .f13 := by
  simp only [thumbFormat, ite_eq_iff, reduceCtorEq, and_false, false_or, or_false, and_true]
  simp only [getLsbD_eq_true_iff, getLsbD_eq_false_iff, extractLsb'_eq_iff_toNat, BitVec.reduceToNat, Nat.reducePow] at *
  omega

theorem thumbFormat_f14 (h1 : t.extractLsb' 12 4 = 0b1011#4) (h2 : t.extractLsb' 9 2 = 0b10#2) : thumbFormat t = .f14 := by
  simp only [thumbFormat, ite_eq_iff, reduceCtorEq, and_false, false_or, or_false, and_true]
  simp only [getLsbD_eq_true_iff, getLsbD_eq_false_iff, extractLsb'_eq_iff_toNat, BitVec.reduceToNat, Nat.reducePow] at *
  omega

theorem thumbFormat_f15 (h : t.extractLsb' 12 4 = 0b1100#4) : thumbFormat t = .f15 := by
  simp only [thumbFormat, ite_eq_iff, reduceCtorEq, and_false, false_or, or_false, and_true]
  simp only [getLsbD_eq_true_iff, getLsbD_eq_false_iff, extractLsb'_eq_iff_toNat, BitVec.reduceToNat, Nat.reducePow] at *
  omega

theorem thumbFormat_f16 (h1 : t.extractLsb' 12 4 = 0b1101#4) (h2 : t.extractLsb' 9 3 ≠ 0b111#3) : thumbFormat t = .f16 := by
  simp only [thumbFormat, ite_eq_iff, reduceCtorEq, and_false, false_or, or_false, and_true]
  simp only [getLsbD_eq_true_iff, getLsbD_eq_false_iff, ne_eq, extractLsb'_eq_iff_toNat, BitVec.reduceToNat, Nat.reducePow] at *
  omega

theorem thumbFormat_f17 (h : t.extractLsb' 8 8 = 0b11011111#8) : thumbFormat t = .f17 := by
  simp only [thumbFormat, ite_eq_iff, reduceCtorEq, and_false, false_or, or_false, and_true]
  simp only [getLsbD_eq_true_iff, getLsbD_eq_false_iff, extractLsb'_eq_iff_toNat, BitVec.reduceToNat, Nat.reducePow] at *
  omega

theorem thumbFormat_f18 (h : t.extractLsb' 11 5 = 0b11100#5) : thumbFormat t = .f18 := by
  simp only [thumbFormat, ite_eq_iff, reduceCtorEq, and_false, false_or, or_false, and_true]
  simp only [getLsbD_eq_true_iff, getLsbD_eq_false_iff, extractLsb'_eq_iff_toNat, BitVec.reduceToNat, Nat.reducePow] at *
  omega

theorem thumbFormat_f19 (h : t.extractLsb' 12 4 = 0b1111#4) : thumbFormat t = .f19 := by
  simp only [thumbFormat, ite_eq_iff, reduceCtorEq, and_false, false_or, and_true]
  simp only [getLsbD_eq_true_iff, getLsbD_eq_false_iff, extractLsb'_eq_iff_toNat, BitVec.reduceToNat, Nat.reducePow] at *
  omega

end ThumbWalk

/-! ## The formats -/

section Formats
variable (rn rs rd ro rb : LoReg) (h1 h2 r : Bool) (imm3 : BitVec 3) (imm5 : BitVec 5) (imm7 : BitVec 7) (imm8 : BitVec 8)
  (imm11 : BitVec 11) (cond : Cond)

theorem decode_encode_f1 :
    ∀ i ∈ ([.tLslImm imm5 rs rd, .tLsrImm imm5 rs rd, .tAsrImm imm5 rs rd] : List Instr), decode (encode i) = .instr i := by
  simp only [List.forall_mem_cons, List.not_mem_nil, false_implies, implies_true, and_true]
  and_intros
  all_goals
    rw [encode, decode, decodeThumb, thumbFormat_f1 ?_ ?_]
    · simp (disch := decide) only [parseF1, Code.loAt, field_append_low, field_append_high, bit_append_high]
      simp
    all_goals
      simp (disch := decide) only [field_append_high]
      simp

theorem decode_encode_f2 :
    ∀ i ∈ ([.tAddReg rn rs rd, .tSubReg rn rs rd, .tAddImm3 imm3 rs rd,
      .tSubImm3 imm3 rs rd] : List Instr), decode (encode i) = .instr i := by
  simp only [List.forall_mem_cons, List.not_mem_nil, false_implies, implies_true, and_true]
  and_intros
  all_goals
    rw [encode, decode, decodeThumb, thumbFormat_f2 ?_]
    · simp (disch := decide) only [parseF2, Code.loAt, field_append_low, field_append_high, bit_append_high]
      simp
    · simp (disch := decide) only [field_append_high]
      simp

theorem decode_encode_f3 :
    ∀ i ∈ ([.tMovImm rd imm8, .tCmpImm rd imm8, .tAddImm8 rd imm8,
      .tSubImm8 rd imm8] : List Instr), decode (encode i) = .instr i := by
  simp only [List.forall_mem_cons, List.not_mem_nil, false_implies, implies_true, and_true]
  and_intros
  all_goals
    rw [encode, decode, decodeThumb, thumbFormat_f3 ?_]
    · simp (disch := decide) only [parseF3, Code.loAt, field_append_low, field_append_high, bit_append_high]
      simp
    · simp (disch := decide) only [field_append_high]
      simp

theorem decode_encode_f4 :
    ∀ i ∈ ([.tAnd rs rd, .tEor rs rd, .tLslReg rs rd, .tLsrReg rs rd, .tAsrReg rs rd, .tAdc rs rd, .tSbc rs rd, .tRor rs rd,
      .tTst rs rd, .tNeg rs rd, .tCmpReg rs rd, .tCmn rs rd, .tOrr rs rd, .tMul rs rd, .tBic rs rd,
      .tMvn rs rd] : List Instr), decode (encode i) = .instr i := by
  simp only [List.forall_mem_cons, List.not_mem_nil, false_implies, implies_true, and_true]
  and_intros
  all_goals
    rw [encode, decode, decodeThumb, thumbFormat_f4 ?_]
    · simp (disch := decide) only [parseF4, Code.loAt, field_append_low, field_append_high]
      simp
    · simp (disch := decide) only [field_append_high]
      simp

theorem decode_encode_f5 :
    ∀ i ∈ ([.tAddHi h1 h2 rs rd, .tCmpHi h1 h2 rs rd, .tMovHi h1 h2 rs rd,
      .tBx h1 h2 rs rd] : List Instr), decode (encode i) = .instr i := by
  simp only [List.forall_mem_cons, List.not_mem_nil, false_implies, implies_true, and_true]
  and_intros
  all_goals
    rw [encode, decode, decodeThumb, thumbFormat_f5 ?_]
    · simp (disch := decide) only [parseF5, Code.loAt, field_append_low, field_append_high, bit_append_low, bit_append_high]
      simp [bit]
    · simp (disch := decide) only [field_append_high]
      simp

theorem decode_encode_f6 :
    decode (encode (.tLdrPc rd imm8)) = .instr (.tLdrPc rd imm8) := by
  rw [encode, decode, decodeThumb, thumbFormat_f6 ?_]
  · simp (disch := decide) only [Code.loAt, field_append_low, field_append_high]
    simp
  · simp (disch := decide) only [field_append_high]
    simp

theorem decode_encode_f7 :
    ∀ i ∈ ([.tStrReg ro rb rd, .tStrbReg ro rb rd, .tLdrReg ro rb rd,
      .tLdrbReg ro rb rd] : List Instr), decode (encode i) = .instr i := by
  simp only [List.forall_mem_cons, List.not_mem_nil, false_implies, implies_true, and_true]
  and_intros
  all_goals
    rw [encode, decode, decodeThumb, thumbFormat_f7 ?_ ?_]
    · simp (disch := decide) only [parseF7, Code.loAt, field_append_low, field_append_high, bit_append_high]
      simp
    all_goals
      simp (disch := decide) only [field_append_high, bit_append_high]
      simp

theorem decode_encode_f8 :
    ∀ i ∈ ([.tStrhReg ro rb rd, .tLdsb ro rb rd, .tLdrhReg ro rb rd,
      .tLdsh ro rb rd] : List Instr), decode (encode i) = .instr i := by
  simp only [List.forall_mem_cons, List.not_mem_nil, false_implies, implies_true, and_true]
  and_intros
  all_goals
    rw [encode, decode, decodeThumb, thumbFormat_f8 ?_ ?_]
    · simp (disch := decide) only [parseF8, Code.loAt, field_append_low, field_append_high, bit_append_high]
      simp
    all_goals
      simp (disch := decide) only [field_append_high, bit_append_high]
      simp

theorem decode_encode_f9 :
    ∀ i ∈ ([.tStrImm imm5 rb rd, .tLdrImm imm5 rb rd, .tStrbImm imm5 rb rd,
      .tLdrbImm imm5 rb rd] : List Instr), decode (encode i) = .instr i := by
  simp only [List.forall_mem_cons, List.not_mem_nil, false_implies, implies_true, and_true]
  and_intros
  all_goals
    rw [encode, decode, decodeThumb, thumbFormat_f9 ?_]
    · simp (disch := decide) only [parseF9, Code.loAt, field_append_low, field_append_high, bit_append_high]
      simp
    · simp (disch := decide) only [field_append_high]
      simp

theorem decode_encode_f10 :
    ∀ i ∈ ([.tStrhImm imm5 rb rd, .tLdrhImm imm5 rb rd] : List Instr), decode (encode i) = .instr i := by
  simp only [List.forall_mem_cons, List.not_mem_nil, false_implies, implies_true, and_true]
  and_intros
  all_goals
    rw [encode, decode, decodeThumb, thumbFormat_f10 ?_]
    · simp (disch := decide) only [Code.loAt, field_append_low, field_append_high, bit_append_high]
      simp
    · simp (disch := decide) only [field_append_high]
      simp

theorem decode_encode_f11 :
    ∀ i ∈ ([.tStrSp rd imm8, .tLdrSp rd imm8] : List Instr), decode (encode i) = .instr i := by
  simp only [List.forall_mem_cons, List.not_mem_nil, false_implies, implies_true, and_true]
  and_intros
  all_goals
    rw [encode, decode, decodeThumb, thumbFormat_f11 ?_]
    · simp (disch := decide) only [Code.loAt, field_append_low, field_append_high, bit_append_high]
      simp
    · simp (disch := decide) only [field_append_high]
      simp

theorem decode_encode_f12 :
    ∀ i ∈ ([.tAddPc rd imm8, .tAddSp rd imm8] : List Instr), decode (encode i) = .instr i := by
  simp only [List.forall_mem_cons, List.not_mem_nil, false_implies, implies_true, and_true]
  and_intros
  all_goals
    rw [encode, decode, decodeThumb, thumbFormat_f12 ?_]
    · simp (disch := decide) only [Code.loAt, field_append_low, field_append_high, bit_append_high]
      simp
    · simp (disch := decide) only [field_append_high]
      simp

theorem decode_encode_f13 :
    ∀ i ∈ ([.tAddSpImm imm7, .tSubSpImm imm7] : List Instr), decode (encode i) = .instr i := by
  simp only [List.forall_mem_cons, List.not_mem_nil, false_implies, implies_true, and_true]
  and_intros
  all_goals
    rw [encode, decode, decodeThumb, thumbFormat_f13 ?_]
    · simp (disch := decide) only [field_append_low, bit_append_high]
      simp
    · simp (disch := decide) only [field_append_high]
      simp

theorem decode_encode_f14 :
    ∀ i ∈ ([.tPush r imm8, .tPop r imm8] : List Instr), decode (encode i) = .instr i := by
  simp only [List.forall_mem_cons, List.not_mem_nil, false_implies, implies_true, and_true]
  and_intros
  all_goals
    rw [encode, decode, decodeThumb, thumbFormat_f14 ?_ ?_]
    · simp (disch := decide) only [field_append_low, bit_append_low, bit_append_high]
      simp [bit]
    all_goals
      simp (disch := decide) only [field_append_high]
      simp

theorem decode_encode_f15 :
    ∀ i ∈ ([.tStmia rb imm8, .tLdmia rb imm8] : List Instr), decode (encode i) = .instr i := by
  simp only [List.forall_mem_cons, List.not_mem_nil, false_implies, implies_true, and_true]
  and_intros
  all_goals
    rw [encode, decode, decodeThumb, thumbFormat_f15 ?_]
    · simp (disch := decide) only [Code.loAt, field_append_low, field_append_high, bit_append_high]
      simp
    · simp (disch := decide) only [field_append_high]
      simp

theorem decode_encode_f16 (hwf : (Instr.tBcond cond imm8).wf = true) :
    decode (encode (.tBcond cond imm8)) = .instr (.tBcond cond imm8) := by
  rw [encode, decode, decodeThumb, thumbFormat_f16 ?_ ?_]
  · simp (disch := decide) only [field_append_low, field_append_high]
    simp
  all_goals
    simp (disch := decide) only [field_append_low, field_append_high]
    revert hwf; cases cond <;> simp [Cond.bits, Instr.wf]

theorem decode_encode_f17 :
    decode (encode (.tSwi imm8)) = .instr (.tSwi imm8) := by
  rw [encode, decode, decodeThumb, thumbFormat_f17 ?_]
  · simp (disch := decide) only [field_append_low]
    simp
  · simp (disch := decide) only [field_append_high]
    simp

theorem decode_encode_f18 :
    decode (encode (.tB imm11)) = .instr (.tB imm11) := by
  rw [encode, decode, decodeThumb, thumbFormat_f18 ?_]
  · simp (disch := decide) only [field_append_low]
    simp
  · simp (disch := decide) only [field_append_high]
    simp

theorem decode_encode_f19 :
    ∀ i ∈ ([.tBlHi imm11, .tBlLo imm11] : List Instr), decode (encode i) = .instr i := by
  simp only [List.forall_mem_cons, List.not_mem_nil, false_implies, implies_true, and_true]
  and_intros
  all_goals
    rw [encode, decode, decodeThumb, thumbFormat_f19 ?_]
    · simp (disch := decide) only [field_append_low, bit_append_high]
      simp
    · simp (disch := decide) only [field_append_high]
      simp

end Formats

end Sys2Proof

/-! O1 and O2 from the families, and what decodes is well formed (R161, R190). -/

namespace Sys2Proof

theorem isa_encode (i : Instr) : (encode i).isa = i.isa := by cases i <;> rfl

/-- The decoder undoes the encoder, family by family. -/
theorem decode_encode {i : Instr} (hwf : i.wf = true) : decode (encode i) = .instr i := by
  cases i with
  | andImm cond sf rn rd rotate imm => exact decode_encode_dpImm .and cond sf rn rd rotate imm
  | andShimm cond sf rn rd amount ty rm => exact decode_encode_dpShimm .and cond sf rn rd amount ty rm
  | andShreg cond sf rn rd rs ty rm => exact decode_encode_dpShreg .and cond sf rn rd rs ty rm
  | eorImm cond sf rn rd rotate imm => exact decode_encode_dpImm .eor cond sf rn rd rotate imm
  | eorShimm cond sf rn rd amount ty rm => exact decode_encode_dpShimm .eor cond sf rn rd amount ty rm
  | eorShreg cond sf rn rd rs ty rm => exact decode_encode_dpShreg .eor cond sf rn rd rs ty rm
  | subImm cond sf rn rd rotate imm => exact decode_encode_dpImm .sub cond sf rn rd rotate imm
  | subShimm cond sf rn rd amount ty rm => exact decode_encode_dpShimm .sub cond sf rn rd amount ty rm
  | subShreg cond sf rn rd rs ty rm => exact decode_encode_dpShreg .sub cond sf rn rd rs ty rm
  | rsbImm cond sf rn rd rotate imm => exact decode_encode_dpImm .rsb cond sf rn rd rotate imm
  | rsbShimm cond sf rn rd amount ty rm => exact decode_encode_dpShimm .rsb cond sf rn rd amount ty rm
  | rsbShreg cond sf rn rd rs ty rm => exact decode_encode_dpShreg .rsb cond sf rn rd rs ty rm
  | addImm cond sf rn rd rotate imm => exact decode_encode_dpImm .add cond sf rn rd rotate imm
  | addShimm cond sf rn rd amount ty rm => exact decode_encode_dpShimm .add cond sf rn rd amount ty rm
  | addShreg cond sf rn rd rs ty rm => exact decode_encode_dpShreg .add cond sf rn rd rs ty rm
  | adcImm cond sf rn rd rotate imm => exact decode_encode_dpImm .adc cond sf rn rd rotate imm
  | adcShimm cond sf rn rd amount ty rm => exact decode_encode_dpShimm .adc cond sf rn rd amount ty rm
  | adcShreg cond sf rn rd rs ty rm => exact decode_encode_dpShreg .adc cond sf rn rd rs ty rm
  | sbcImm cond sf rn rd rotate imm => exact decode_encode_dpImm .sbc cond sf rn rd rotate imm
  | sbcShimm cond sf rn rd amount ty rm => exact decode_encode_dpShimm .sbc cond sf rn rd amount ty rm
  | sbcShreg cond sf rn rd rs ty rm => exact decode_encode_dpShreg .sbc cond sf rn rd rs ty rm
  | rscImm cond sf rn rd rotate imm => exact decode_encode_dpImm .rsc cond sf rn rd rotate imm
  | rscShimm cond sf rn rd amount ty rm => exact decode_encode_dpShimm .rsc cond sf rn rd amount ty rm
  | rscShreg cond sf rn rd rs ty rm => exact decode_encode_dpShreg .rsc cond sf rn rd rs ty rm
  | tstImm cond rn rd rotate imm => exact decode_encode_dpImm .tst cond true rn rd rotate imm
  | tstShimm cond rn rd amount ty rm => exact decode_encode_dpShimm .tst cond true rn rd amount ty rm
  | tstShreg cond rn rd rs ty rm => exact decode_encode_dpShreg .tst cond true rn rd rs ty rm
  | teqImm cond rn rd rotate imm => exact decode_encode_dpImm .teq cond true rn rd rotate imm
  | teqShimm cond rn rd amount ty rm => exact decode_encode_dpShimm .teq cond true rn rd amount ty rm
  | teqShreg cond rn rd rs ty rm => exact decode_encode_dpShreg .teq cond true rn rd rs ty rm
  | cmpImm cond rn rd rotate imm => exact decode_encode_dpImm .cmp cond true rn rd rotate imm
  | cmpShimm cond rn rd amount ty rm => exact decode_encode_dpShimm .cmp cond true rn rd amount ty rm
  | cmpShreg cond rn rd rs ty rm => exact decode_encode_dpShreg .cmp cond true rn rd rs ty rm
  | cmnImm cond rn rd rotate imm => exact decode_encode_dpImm .cmn cond true rn rd rotate imm
  | cmnShimm cond rn rd amount ty rm => exact decode_encode_dpShimm .cmn cond true rn rd amount ty rm
  | cmnShreg cond rn rd rs ty rm => exact decode_encode_dpShreg .cmn cond true rn rd rs ty rm
  | orrImm cond sf rn rd rotate imm => exact decode_encode_dpImm .orr cond sf rn rd rotate imm
  | orrShimm cond sf rn rd amount ty rm => exact decode_encode_dpShimm .orr cond sf rn rd amount ty rm
  | orrShreg cond sf rn rd rs ty rm => exact decode_encode_dpShreg .orr cond sf rn rd rs ty rm
  | movImm cond sf rn rd rotate imm => exact decode_encode_dpImm .mov cond sf rn rd rotate imm
  | movShimm cond sf rn rd amount ty rm => exact decode_encode_dpShimm .mov cond sf rn rd amount ty rm
  | movShreg cond sf rn rd rs ty rm => exact decode_encode_dpShreg .mov cond sf rn rd rs ty rm
  | bicImm cond sf rn rd rotate imm => exact decode_encode_dpImm .bic cond sf rn rd rotate imm
  | bicShimm cond sf rn rd amount ty rm => exact decode_encode_dpShimm .bic cond sf rn rd amount ty rm
  | bicShreg cond sf rn rd rs ty rm => exact decode_encode_dpShreg .bic cond sf rn rd rs ty rm
  | mvnImm cond sf rn rd rotate imm => exact decode_encode_dpImm .mvn cond sf rn rd rotate imm
  | mvnShimm cond sf rn rd amount ty rm => exact decode_encode_dpShimm .mvn cond sf rn rd amount ty rm
  | mvnShreg cond sf rn rd rs ty rm => exact decode_encode_dpShreg .mvn cond sf rn rd rs ty rm
  | mrs cond spsr rd => exact decode_encode_mrs cond spsr rd
  | msrReg cond spsr mask rm => exact decode_encode_msrReg cond spsr rm mask
  | msrImm cond spsr mask rotate imm => exact decode_encode_msrImm cond spsr mask rotate imm
  | mul cond sf rd rs rm => exact decode_encode_multiply cond sf rd 0 rs rm _ (by simp)
  | mla cond sf rd rn rs rm => exact decode_encode_multiply cond sf rd rn rs rm _ (by simp)
  | umull cond sf rdHi rdLo rs rm | umlal cond sf rdHi rdLo rs rm | smull cond sf rdHi rdLo rs rm
      | smlal cond sf rdHi rdLo rs rm => exact decode_encode_multiplyLong cond sf rs rm rdHi rdLo _ (by simp)
  | swp cond rn rd rm | swpb cond rn rd rm => exact decode_encode_swap cond rd rn rm _ (by simp)
  | bx cond rm => exact decode_encode_bx cond rm
  | strImm cond p u w rn rd imm | ldrImm cond p u w rn rd imm | strbImm cond p u w rn rd imm | ldrbImm cond p u w rn rd imm =>
    exact decode_encode_singleImm cond p u w rn rd imm hwf _ (by simp)
  | strReg cond p u w rn rd amount ty rm | ldrReg cond p u w rn rd amount ty rm | strbReg cond p u w rn rd amount ty rm
      | ldrbReg cond p u w rn rd amount ty rm => exact decode_encode_singleReg cond p u w rn rd amount ty rm hwf _ (by simp)
  | strtImm cond u rn rd imm | ldrtImm cond u rn rd imm | strbtImm cond u rn rd imm | ldrbtImm cond u rn rd imm =>
    exact decode_encode_singleTImm cond u rn rd imm _ (by simp)
  | strtReg cond u rn rd amount ty rm | ldrtReg cond u rn rd amount ty rm | strbtReg cond u rn rd amount ty rm
      | ldrbtReg cond u rn rd amount ty rm => exact decode_encode_singleTReg cond u rn rd amount ty rm _ (by simp)
  | strhImm cond p u w rn rd imm | ldrhImm cond p u w rn rd imm | ldrsbImm cond p u w rn rd imm
      | ldrshImm cond p u w rn rd imm => exact decode_encode_halfwordImm cond p u w rn rd imm hwf _ (by simp)
  | strhReg cond p u w rn rd rm | ldrhReg cond p u w rn rd rm | ldrsbReg cond p u w rn rd rm | ldrshReg cond p u w rn rd rm =>
    exact decode_encode_halfwordReg cond p u w rn rd rm hwf _ (by simp)
  | ldmia cond ub w rn list | stmia cond ub w rn list | ldmib cond ub w rn list | stmib cond ub w rn list
      | ldmda cond ub w rn list | stmda cond ub w rn list | ldmdb cond ub w rn list | stmdb cond ub w rn list =>
    exact decode_encode_block cond w ub rn list _ (by simp)
  | b cond imm | bl cond imm => exact decode_encode_branch cond imm _ (by simp)
  | swi cond comment => exact decode_encode_swi cond comment
  | tLslImm imm rs rd | tLsrImm imm rs rd | tAsrImm imm rs rd => exact decode_encode_f1 rs rd imm _ (by simp)
  | tAddReg rn rs rd | tSubReg rn rs rd => exact decode_encode_f2 rn rs rd 0 _ (by simp)
  | tAddImm3 imm rs rd | tSubImm3 imm rs rd => exact decode_encode_f2 0 rs rd imm _ (by simp)
  | tMovImm rd imm | tCmpImm rd imm | tAddImm8 rd imm | tSubImm8 rd imm => exact decode_encode_f3 rd imm _ (by simp)
  | tAnd rs rd | tEor rs rd | tLslReg rs rd | tLsrReg rs rd | tAsrReg rs rd | tAdc rs rd | tSbc rs rd | tRor rs rd
      | tTst rs rd | tNeg rs rd | tCmpReg rs rd | tCmn rs rd | tOrr rs rd | tMul rs rd | tBic rs rd | tMvn rs rd =>
    exact decode_encode_f4 rs rd _ (by simp)
  | tAddHi h1 h2 rs rd | tCmpHi h1 h2 rs rd | tMovHi h1 h2 rs rd | tBx h1 h2 rs rd =>
    exact decode_encode_f5 rs rd h1 h2 _ (by simp)
  | tLdrPc rd imm => exact decode_encode_f6 rd imm
  | tStrReg ro rb rd | tStrbReg ro rb rd | tLdrReg ro rb rd | tLdrbReg ro rb rd => exact decode_encode_f7 rd ro rb _ (by simp)
  | tStrhReg ro rb rd | tLdsb ro rb rd | tLdrhReg ro rb rd | tLdsh ro rb rd => exact decode_encode_f8 rd ro rb _ (by simp)
  | tStrImm imm rb rd | tLdrImm imm rb rd | tStrbImm imm rb rd | tLdrbImm imm rb rd =>
    exact decode_encode_f9 rd rb imm _ (by simp)
  | tStrhImm imm rb rd | tLdrhImm imm rb rd => exact decode_encode_f10 rd rb imm _ (by simp)
  | tStrSp rd imm | tLdrSp rd imm => exact decode_encode_f11 rd imm _ (by simp)
  | tAddPc rd imm | tAddSp rd imm => exact decode_encode_f12 rd imm _ (by simp)
  | tAddSpImm imm | tSubSpImm imm => exact decode_encode_f13 imm _ (by simp)
  | tPush r list | tPop r list => exact decode_encode_f14 r list _ (by simp)
  | tStmia rb list | tLdmia rb list => exact decode_encode_f15 rb list _ (by simp)
  | tBcond cond imm => exact decode_encode_f16 imm cond hwf
  | tSwi comment => exact decode_encode_f17 comment
  | tB imm => exact decode_encode_f18 imm
  | tBlHi imm | tBlLo imm => exact decode_encode_f19 imm _ (by simp)

/-- Settles O1: the code of an ARM instruction is an ARM word, which the decoder takes back. -/
theorem decodeEncodeArm : Obligations.DecodeEncodeArm := by
  intro i hwf harm
  have hisa : (encode i).isa = .arm := (isa_encode i).trans harm
  cases hcode : encode i with
  | arm w => exact ⟨w, rfl, hcode ▸ decode_encode hwf⟩
  | thumb h => rw [hcode] at hisa; cases hisa

/-- Settles O2: the code of a Thumb instruction is a halfword, which the decoder takes back. -/
theorem decodeEncodeThumb : Obligations.DecodeEncodeThumb := by
  intro i hwf hthumb
  have hisa : (encode i).isa = .thumb := (isa_encode i).trans hthumb
  cases hcode : encode i with
  | arm w => rw [hcode] at hisa; cases hisa
  | thumb h => exact ⟨h, rfl, hcode ▸ decode_encode hwf⟩

/-! ## What decodes is well formed -/

theorem wf_parseDataProcessing (w : Word) : (parseDataProcessing w).wf = true ∧ (parseDataProcessing w).isa = .arm := by
  rw [parseDataProcessing]
  generalize AluOp.ofBits (w.extractLsb' 21 4) = op
  split
  · cases op <;> exact ⟨rfl, rfl⟩
  · split
    · cases op <;> exact ⟨rfl, rfl⟩
    · cases op <;> exact ⟨rfl, rfl⟩

/-- The undefined slots of the halfword transfers are post-indexed with write-back (R170 (d)). -/
theorem index_of_armFormat_halfword {hi : BitVec 8} {lo : BitVec 4} (h : armFormat hi lo = .halfwordTransfer) :
    (hi.getLsbD 4 || !hi.getLsbD 1) = true := by
  have hgroup : armFormat000 hi lo = .halfwordTransfer := by
    rw [armFormat] at h
    split at h
    case h_1 => exact h
    case h_2 | h_4 | h_8 => split_ifs at h
    case h_3 | h_5 | h_6 | h_7 => cases h
  rw [armFormat000] at hgroup
  split_ifs at hgroup with _ _ _ _ _ _ hback
  simpa [Classical.or_iff_not_imp_left] using hback

theorem wf_parseHalfword {w : Word} (h : (w.getLsbD 24 || !w.getLsbD 21) = true) :
    (parseHalfword w).wf = true ∧ (parseHalfword w).isa = .arm := by
  rw [parseHalfword]
  split <;> exact ⟨h, rfl⟩

theorem wf_parseSingle (w : Word) : (parseSingle w).wf = true ∧ (parseSingle w).isa = .arm := by
  rw [parseSingle]
  split
  · split <;> exact ⟨rfl, rfl⟩
  · next hpost =>
    have hindex : (w.getLsbD 24 || !w.getLsbD 21) = true := by simpa [Classical.or_iff_not_imp_left] using hpost
    split <;> exact ⟨hindex, rfl⟩

theorem wf_decodeArm {w : Word} {i : Instr} (h : decodeArm w = .instr i) : i.wf = true ∧ i.isa = .arm := by
  rw [decodeArm] at h
  cases hf : armFormat (w.extractLsb' 20 8) (w.extractLsb' 4 4) <;> rw [hf] at h
  case undefined => cases h
  all_goals obtain rfl := DecodeResult.instr.inj h
  case dataProcessing => exact wf_parseDataProcessing w
  case halfwordTransfer =>
    have hindex := index_of_armFormat_halfword hf
    rw [bit_of_field w (by decide), bit_of_field w (by decide)] at hindex
    exact wf_parseHalfword hindex
  case singleDataTransfer => exact wf_parseSingle w
  case multiply => rw [parseMultiply]; split <;> exact ⟨rfl, rfl⟩
  case multiplyLong => rw [parseMultiplyLong]; split <;> exact ⟨rfl, rfl⟩
  case singleDataSwap => rw [parseSwap]; split <;> exact ⟨rfl, rfl⟩
  case blockDataTransfer => rw [parseBlock]; split <;> exact ⟨rfl, rfl⟩
  case branch => split <;> exact ⟨rfl, rfl⟩
  case mrs | msrRegister | msrImmediate | branchExchange | softwareInterrupt => exact ⟨rfl, rfl⟩

/-- Format 16 leaves conditions `1110` and `1111` to an undefined encoding and to SWI (R190). -/
theorem cond_of_thumbFormat_f16 {t : Half} (h : thumbFormat t = .f16) :
    t.extractLsb' 8 4 ≠ 0b1110#4 ∧ t.extractLsb' 8 4 ≠ 0b1111#4 := by
  simp only [thumbFormat, ite_eq_iff, reduceCtorEq, and_false, false_or, or_false, and_true] at h
  simp only [ne_eq, extractLsb'_eq_iff_toNat, BitVec.reduceToNat, Nat.reducePow] at h ⊢
  omega

theorem wf_tBcond {c : BitVec 4} (hal : c ≠ 0b1110#4) (hnv : c ≠ 0b1111#4) (imm : BitVec 8) :
    (Instr.tBcond (Cond.ofBits c) imm).wf = true := by
  have hcond : ∀ c : BitVec 4, c ≠ 0b1110#4 → c ≠ 0b1111#4 → (Cond.ofBits c != .al && Cond.ofBits c != .nv) = true := by decide
  exact hcond c hal hnv

theorem wf_decodeThumb {t : Half} {i : Instr} (h : decodeThumb t = .instr i) : i.wf = true ∧ i.isa = .thumb := by
  rw [decodeThumb] at h
  cases hf : thumbFormat t <;> rw [hf] at h
  case undefined => cases h
  all_goals obtain rfl := DecodeResult.instr.inj h
  case f1 => rw [parseF1]; split <;> exact ⟨rfl, rfl⟩
  case f2 => rw [parseF2]; split <;> exact ⟨rfl, rfl⟩
  case f3 => rw [parseF3]; split <;> exact ⟨rfl, rfl⟩
  case f4 => rw [parseF4]; split <;> exact ⟨rfl, rfl⟩
  case f5 => rw [parseF5]; split <;> exact ⟨rfl, rfl⟩
  case f7 => rw [parseF7]; split <;> exact ⟨rfl, rfl⟩
  case f8 => rw [parseF8]; split <;> exact ⟨rfl, rfl⟩
  case f9 => rw [parseF9]; split <;> exact ⟨rfl, rfl⟩
  case f16 => exact ⟨wf_tBcond (cond_of_thumbFormat_f16 hf).1 (cond_of_thumbFormat_f16 hf).2 _, rfl⟩
  case f10 | f11 | f12 | f13 | f14 | f15 | f19 => split <;> exact ⟨rfl, rfl⟩
  case f6 | f17 | f18 => exact ⟨rfl, rfl⟩

/-- Settles O3: each format's parser answers instructions of its own set, and the two formats with an exclusion are only reached by
words that meet it. -/
theorem decodedWellFormed : Obligations.DecodedWellFormed := by
  intro c i h
  cases c with
  | arm w => exact wf_decodeArm h
  | thumb t => exact wf_decodeThumb h

/-- Settles O6: the decoder computes on each of the eighteen words. -/
theorem decodeExampleWords : Obligations.DecodeExampleWords := by
  unfold Obligations.DecodeExampleWords
  and_intros <;> decide

end Sys2Proof

/-! The Thumb operations of formats 1 to 4 as data processing with S = 1 (R400 to R427). -/

namespace Sys2Proof.Machine

section ThumbAlu
variable (rn rs rd : LoReg) (imm3 : BitVec 3) (imm5 : BitVec 5) (imm8 : BitVec 8) (s : State)

theorem exec_tLslImm : exec (.tLslImm imm5 rs rd) s =
    dataProcess .mov true (lo rd) 0 (shiftImm .lsl imm5 (s.readReg (lo rs)) s.flagC) 0 s := rfl

theorem exec_tLsrImm : exec (.tLsrImm imm5 rs rd) s =
    dataProcess .mov true (lo rd) 0 (shiftImm .lsr imm5 (s.readReg (lo rs)) s.flagC) 0 s := rfl

theorem exec_tAsrImm : exec (.tAsrImm imm5 rs rd) s =
    dataProcess .mov true (lo rd) 0 (shiftImm .asr imm5 (s.readReg (lo rs)) s.flagC) 0 s := rfl

theorem exec_tAddReg : exec (.tAddReg rn rs rd) s =
    dataProcess .add true (lo rd) (s.readReg (lo rs)) (plain (s.readReg (lo rn)) s) 0 s := rfl

theorem exec_tSubReg : exec (.tSubReg rn rs rd) s =
    dataProcess .sub true (lo rd) (s.readReg (lo rs)) (plain (s.readReg (lo rn)) s) 0 s := rfl

theorem exec_tAddImm3 : exec (.tAddImm3 imm3 rs rd) s =
    dataProcess .add true (lo rd) (s.readReg (lo rs)) (plain (imm3.zeroExtend 32) s) 0 s := rfl

theorem exec_tSubImm3 : exec (.tSubImm3 imm3 rs rd) s =
    dataProcess .sub true (lo rd) (s.readReg (lo rs)) (plain (imm3.zeroExtend 32) s) 0 s := rfl

theorem exec_tMovImm : exec (.tMovImm rd imm8) s = dataProcess .mov true (lo rd) 0 (plain (imm8.zeroExtend 32) s) 0 s := rfl

theorem exec_tCmpImm : exec (.tCmpImm rd imm8) s =
    dataProcess .cmp true (lo rd) (s.readReg (lo rd)) (plain (imm8.zeroExtend 32) s) 0 s := rfl

theorem exec_tAddImm8 : exec (.tAddImm8 rd imm8) s =
    dataProcess .add true (lo rd) (s.readReg (lo rd)) (plain (imm8.zeroExtend 32) s) 0 s := rfl

theorem exec_tSubImm8 : exec (.tSubImm8 rd imm8) s =
    dataProcess .sub true (lo rd) (s.readReg (lo rd)) (plain (imm8.zeroExtend 32) s) 0 s := rfl

theorem exec_tAnd : exec (.tAnd rs rd) s =
    dataProcess .and true (lo rd) (s.readReg (lo rd)) (plain (s.readReg (lo rs)) s) 0 s := rfl

theorem exec_tEor : exec (.tEor rs rd) s =
    dataProcess .eor true (lo rd) (s.readReg (lo rd)) (plain (s.readReg (lo rs)) s) 0 s := rfl

theorem exec_tLslReg : exec (.tLslReg rs rd) s =
    dataProcess .mov true (lo rd) 0 (shiftReg .lsl ((s.readReg (lo rs)).extractLsb' 0 8) (s.readReg (lo rd)) s.flagC) 1 s := rfl

theorem exec_tLsrReg : exec (.tLsrReg rs rd) s =
    dataProcess .mov true (lo rd) 0 (shiftReg .lsr ((s.readReg (lo rs)).extractLsb' 0 8) (s.readReg (lo rd)) s.flagC) 1 s := rfl

theorem exec_tAsrReg : exec (.tAsrReg rs rd) s =
    dataProcess .mov true (lo rd) 0 (shiftReg .asr ((s.readReg (lo rs)).extractLsb' 0 8) (s.readReg (lo rd)) s.flagC) 1 s := rfl

theorem exec_tAdc : exec (.tAdc rs rd) s =
    dataProcess .adc true (lo rd) (s.readReg (lo rd)) (plain (s.readReg (lo rs)) s) 0 s := rfl

theorem exec_tSbc : exec (.tSbc rs rd) s =
    dataProcess .sbc true (lo rd) (s.readReg (lo rd)) (plain (s.readReg (lo rs)) s) 0 s := rfl

theorem exec_tRor : exec (.tRor rs rd) s =
    dataProcess .mov true (lo rd) 0 (shiftReg .ror ((s.readReg (lo rs)).extractLsb' 0 8) (s.readReg (lo rd)) s.flagC) 1 s := rfl

theorem exec_tTst : exec (.tTst rs rd) s =
    dataProcess .tst true (lo rd) (s.readReg (lo rd)) (plain (s.readReg (lo rs)) s) 0 s := rfl

theorem exec_tNeg : exec (.tNeg rs rd) s = dataProcess .rsb true (lo rd) (s.readReg (lo rs)) (plain 0 s) 0 s := rfl

theorem exec_tCmpReg : exec (.tCmpReg rs rd) s =
    dataProcess .cmp true (lo rd) (s.readReg (lo rd)) (plain (s.readReg (lo rs)) s) 0 s := rfl

theorem exec_tCmn : exec (.tCmn rs rd) s =
    dataProcess .cmn true (lo rd) (s.readReg (lo rd)) (plain (s.readReg (lo rs)) s) 0 s := rfl

theorem exec_tOrr : exec (.tOrr rs rd) s =
    dataProcess .orr true (lo rd) (s.readReg (lo rd)) (plain (s.readReg (lo rs)) s) 0 s := rfl

theorem exec_tBic : exec (.tBic rs rd) s =
    dataProcess .bic true (lo rd) (s.readReg (lo rd)) (plain (s.readReg (lo rs)) s) 0 s := rfl

theorem exec_tMvn : exec (.tMvn rs rd) s = dataProcess .mvn true (lo rd) 0 (plain (s.readReg (lo rs)) s) 0 s := rfl

end ThumbAlu

end Sys2Proof.Machine

/-! Every instruction and every step keep a state well formed (O52). -/

namespace Sys2Proof.Machine

/-- The bodies of the families keep a state well formed, and so does a condition that fails. -/
theorem exec_keepsWf {s : State} (h : s.WellFormed) (i : Instr) : KeepsWf s (exec i s) := by
  cases i
  case andImm | eorImm | subImm | rsbImm | addImm | adcImm | sbcImm | rscImm | tstImm | teqImm | cmpImm | cmnImm | orrImm |
      movImm | bicImm | mvnImm | andShimm | eorShimm | subShimm | rsbShimm | addShimm | adcShimm | sbcShimm | rscShimm |
      tstShimm | teqShimm | cmpShimm | cmnShimm | orrShimm | movShimm | bicShimm | mvnShimm =>
    exact .conditional h (keepsWf_dataProcess h _ _ _ _ _ _)
  case andShreg | eorShreg | subShreg | rsbShreg | addShreg | adcShreg | sbcShreg | rscShreg | tstShreg | teqShreg |
      cmpShreg | cmnShreg | orrShreg | movShreg | bicShreg | mvnShreg =>
    exact .conditional h (.checked (keepsWf_dataProcess h _ _ _ _ _ _))
  case mrs => exact .conditional h (keepsWf_moveFromPsr h _ _)
  case msrReg | msrImm => exact .conditional h (keepsWf_moveToPsr h _ _ _ _)
  case mul | mla => exact .conditional h (.checked (keepsWf_multiply h _ _ _ _))
  case umull | umlal | smull | smlal => exact .conditional h (.checked (keepsWf_multiplyLong h _ _ _ _ _))
  case swp | swpb => exact .conditional h (keepsWf_swap h _ _ _ _ _)
  case bx => exact .conditional h (keepsWf_branchExchange h _)
  case ldrImm | ldrtImm => exact .conditional h (keepsWf_loadSingle h _ _ _ _ _ _ _)
  case ldrReg | ldrtReg | ldrbImm | ldrbtImm | ldrhImm | ldrsbImm | ldrshImm =>
    exact .conditional h (.checked (keepsWf_loadSingle h _ _ _ _ _ _ _))
  case ldrbReg | ldrbtReg | ldrhReg | ldrsbReg | ldrshReg =>
    exact .conditional h (.checked (.checked (keepsWf_loadSingle h _ _ _ _ _ _ _)))
  case strImm | strtImm => exact .conditional h (keepsWf_storeSingle h _ _ _ _ _ _ _)
  case strReg | strtReg | strbImm | strbtImm | strhImm => exact .conditional h (.checked (keepsWf_storeSingle h _ _ _ _ _ _ _))
  case strbReg | strbtReg | strhReg => exact .conditional h (.checked (.checked (keepsWf_storeSingle h _ _ _ _ _ _ _)))
  case ldmia | ldmib | ldmda | ldmdb => exact .conditional h (keepsWf_blockLoad h _ _ _ _ _ _)
  case stmia | stmib | stmda | stmdb => exact .conditional h (keepsWf_blockStore h _ _ _ _ _ _)
  case b => exact .conditional h (keepsWf_branchTo h _)
  case bl => exact .conditional h fun t ht => keepsWf_branchTo (h.writeReg 14 _) _ t ht
  case swi => exact .conditional h (keepsWf_softwareInterrupt h)
  case tLslImm | tLsrImm | tAsrImm | tAddReg | tSubReg | tAddImm3 | tSubImm3 | tMovImm | tCmpImm | tAddImm8 | tSubImm8 |
      tAnd | tEor | tLslReg | tLsrReg | tAsrReg | tAdc | tSbc | tRor | tTst | tNeg | tCmpReg | tCmn | tOrr | tBic | tMvn =>
    simp only [exec_tLslImm, exec_tLsrImm, exec_tAsrImm, exec_tAddReg, exec_tSubReg, exec_tAddImm3, exec_tSubImm3, exec_tMovImm,
      exec_tCmpImm, exec_tAddImm8, exec_tSubImm8, exec_tAnd, exec_tEor, exec_tLslReg, exec_tLsrReg, exec_tAsrReg, exec_tAdc,
      exec_tSbc, exec_tRor, exec_tTst, exec_tNeg, exec_tCmpReg, exec_tCmn, exec_tOrr, exec_tBic, exec_tMvn]
    exact keepsWf_dataProcess h _ _ _ _ _ _
  case tAddHi | tCmpHi | tMovHi => exact .checked (keepsWf_dataProcess h _ _ _ _ _ _)
  case tMul => exact .checked (keepsWf_multiply h _ _ _ _)
  case tBx => exact .checked (keepsWf_branchExchange h _)
  case tLdrPc | tLdrReg | tLdrbReg | tLdsb | tLdrhReg | tLdsh | tLdrImm | tLdrbImm | tLdrhImm | tLdrSp =>
    exact keepsWf_loadFrom h _ _ _ _
  case tStrReg | tStrbReg | tStrhReg | tStrImm | tStrbImm | tStrhImm | tStrSp => exact keepsWf_storeTo h _ _ _ _
  case tAddPc | tAddSp | tAddSpImm | tSubSpImm => exact keepsWf_writeAddress h _ _
  case tPush | tStmia => exact keepsWf_blockStore h _ _ _ _ _ _
  case tPop | tLdmia => exact keepsWf_blockLoad h _ _ _ _ _ _
  case tBcond => exact .conditional h (keepsWf_branchTo h _)
  case tSwi => exact keepsWf_softwareInterrupt h
  case tB => exact keepsWf_branchTo h _
  case tBlHi => exact .next (((h.chargeCode .S).writeReg 14 _).finish false)
  case tBlLo => exact fun t ht => keepsWf_branchTo (h.writeReg 14 _) _ t ht

theorem runInstr_keepsWf {s : State} (h : s.WellFormed) : KeepsWf s s.runInstr := by
  rw [State.runInstr]
  cases decode s.fetch with
  | instr i => exact exec_keepsWf h i
  | undefined raw index isa => exact fun t ht => nomatch ht

/-- An interrupt entry, or an instruction (R605). -/
theorem afterSampling_keepsWf {s : State} (h : s.WellFormed) (inp : EnvStep) : KeepsWf s (s.afterSampling inp) := by
  rw [State.afterSampling]
  split
  case isTrue => exact .next (((h.chargeCode .S).takeException .fiq _ _ _ (by decide)).finish true)
  case isFalse =>
    split
    case isTrue => exact .next (((h.chargeCode .S).takeException .irq _ _ _ (by decide)).finish true)
    case isFalse => exact runInstr_keepsWf h

/-- A step goes on when what follows its sampling does, and drains the cycle clock (R12, R80). -/
theorem step_next {s t : State} (h : step s = .next t) :
    ∃ t', s.afterInput.afterSampling s.nextInput = .next t' ∧ t = t'.drain := by
  unfold step at h
  cases hr : s.afterInput.afterSampling s.nextInput with
  | next t' => rw [hr] at h; exact ⟨t', rfl, (Host.Outcome.next.inj h).symm⟩
  | fault r => rw [hr] at h; cases h
  | refused r => rw [hr] at h; cases h

/-- Settles O52: the inputs, the entry or the instruction, and the drain each keep a state well formed, and the drain clears the
cycle clock. -/
theorem stepKeepsInvariant : Obligations.StepKeepsInvariant := by
  intro s t hinv hstep
  obtain ⟨t', hnext, rfl⟩ := step_next hstep
  exact ⟨(afterSampling_keepsWf hinv.wellFormed.afterInput _ t' hnext).drain, rfl⟩

end Sys2Proof.Machine

/-! What each instruction leaves unchanged (O47, O48, O49). -/

namespace Sys2Proof.Machine

/-! ## The frames of families in the terms of `effects` -/

theorem mem_regs_baseWritten {p w : Bool} (rn : Reg) (s : State) (h : writesBack p w = true) :
    phys rn s.mode ∈ (regEffects (baseWritten p w rn) s).regs := by
  simp [regEffects, baseWritten, h]

theorem loadSingle_framed_effects {k : LoadKind} {p u w : Bool} {rn rd : Reg} {off : Word} {s t : State}
    (h : loadSingle k p u w rn rd off s = .next t) : Framed (regEffects (rd :: baseWritten p w rn) s) s t :=
  loadSingle_framed h List.mem_cons_self fun hw => List.mem_cons_of_mem _ (mem_regs_baseWritten rn s hw)

theorem storeSingle_framed_effects {k : StoreKind} {p u w : Bool} {rn rd : Reg} {off : Word} {s t : State}
    (h : storeSingle k p u w rn rd off s = .next t) : Framed (storeEffects k p u w rn off s) s t :=
  storeSingle_framed h List.mem_cons_self fun hw => mem_regs_baseWritten rn s hw

/-- A Thumb operation of formats 1 to 4, in any effects that name its register and its flags. -/
theorem thumbAlu_framed {e : Effects} {op : AluOp} {rd : LoReg} {a : Word} {o : Shifted} {x : Word} {s t : State}
    (h : dataProcess op true (lo rd) a o x s = .next t) (hr : isTest op = true ∨ phys (lo rd) s.mode ∈ e.regs)
    (hnz : e.flags.getLsbD 3 = true ∧ e.flags.getLsbD 2 = true)
    (hc : e.flags.getLsbD 1 = false → (alu op a o s.flagC s.flagV).carry = s.flagC)
    (hv : e.flags.getLsbD 0 = false → (alu op a o s.flagC s.flagV).overflow = s.flagV) : Framed e s t :=
  dataProcess_framed h (hr.imp id .inr) (fun _ hpc => absurd hpc (lo_ne_pc rd)) fun _ => ⟨hnz.1, hnz.2, hc, hv⟩

/-- MSR in any effects that name what its mask and its PSR select (R286 to R288). -/
theorem moveToPsr_framed {e : Effects} {spsr : Bool} {mask : PsrMask} {fromPc : Bool} {v : Word} {s t : State}
    (h : moveToPsr spsr mask fromPc v s = .next t) (hz : psrReserved s.cpsr = 0) (hs : spsr = true → e.spsr = true)
    (hf : spsr = false → mask.f = true → e.flags = 0b1111#4) (hc : spsr = false → mask.c = true → e.control = true) :
    Framed e s t := by
  cases spsr with
  | false => exact moveToCpsr_framed h hz (hf rfl) (hc rfl)
  | true => exact moveToSpsr_framed h (hs rfl)

/-- MSR writes no general register and no memory, whatever the reserved bits of the PSRs. -/
theorem moveToPsr_kept (e : Effects) {spsr : Bool} {mask : PsrMask} {fromPc : Bool} {v : Word} {s t : State}
    (h : moveToPsr spsr mask fromPc v s = .next t) : RegsKept e s t ∧ MemoryKept e s t := by
  have hw : Framed { e with flags := 0b1111#4, control := true, spsr := true } s t := by
    cases spsr with
    | true => exact moveToSpsr_framed h rfl
    | false =>
      have hk := (checked_next.mp h).2
      split at hk
      · cases hk
      · obtain rfl := Host.Outcome.next.inj hk
        exact ((Framed.chargeCode _ s .S).trans (Framed.writeCpsr _ _ rfl rfl)).trans (Framed.finish _ _ _)
  exact ⟨hw.regs, hw.memory⟩

/-! ## Every instruction -/

/-- The frame of an instruction. What stays of the CPSR and the SPSRs may rest on reserved bits that are 0, since MSR clears the
others (R71). -/
structure InstrFramed (e : Effects) (s t : State) : Prop where
  regs : RegsKept e s t
  memory : MemoryKept e s t
  status : psrReserved s.cpsr = 0 → Framed e s t

theorem Framed.instrFramed {e : Effects} {s t : State} (h : Framed e s t) : InstrFramed e s t := ⟨h.regs, h.memory, fun _ => h⟩

/-- The frame of MSR under its condition. -/
theorem conditional_moveToPsr_framed {e : Effects} {c : Cond} {spsr : Bool} {mask : PsrMask} {fromPc : Bool} {v : Word}
    {s t : State} (h : conditional c s (moveToPsr spsr mask fromPc v s) = .next t) (hs : spsr = true → e.spsr = true)
    (hf : spsr = false → mask.f = true → e.flags = 0b1111#4) (hc : spsr = false → mask.c = true → e.control = true) :
    InstrFramed e s t := by
  rcases conditional_next h with ⟨-, h⟩ | ⟨-, rfl⟩
  · obtain ⟨hr, hm⟩ := moveToPsr_kept e h
    exact ⟨hr, hm, fun hz => moveToPsr_framed h hz hs hf hc⟩
  · exact ((Framed.chargeCondFail e s).trans (Framed.advance e _)).instrFramed

/-- Each instruction changes what its effects name, and nothing else. -/
theorem exec_framed {i : Instr} {s t : State} (h : exec i s = .next t) : InstrFramed (effects i s) s t := by
  cases i
  case andImm | eorImm | subImm | rsbImm | addImm | adcImm | sbcImm | rscImm | tstImm | teqImm | cmpImm | cmnImm | orrImm |
      movImm | bicImm | mvnImm | andShimm | eorShimm | subShimm | rsbShimm | addShimm | adcShimm | sbcShimm | rscShimm |
      tstShimm | teqShimm | cmpShimm | cmnShimm | orrShimm | movShimm | bicShimm | mvnShimm =>
    refine (conditional_framed h fun t h => ?_).instrFramed
    exact dataProcess_framed_arm h (by simp [isTest])
  case andShreg | eorShreg | subShreg | rsbShreg | addShreg | adcShreg | sbcShreg | rscShreg | tstShreg | teqShreg |
      cmpShreg | cmnShreg | orrShreg | movShreg | bicShreg | mvnShreg =>
    refine (conditional_framed h fun t h => ?_).instrFramed
    exact dataProcess_framed_arm (checked_next.mp h).2 (by simp [isTest])
  case mrs =>
    refine (conditional_framed h fun t h => ?_).instrFramed
    exact moveFromPsr_framed h List.mem_cons_self
  case msrReg | msrImm => refine conditional_moveToPsr_framed h ?_ ?_ ?_ <;> simp +contextual [effects]
  case mul | mla =>
    refine (conditional_framed h fun t h => ?_).instrFramed
    exact multiply_framed (checked_next.mp h).2 List.mem_cons_self (by simp +contextual [effects])
  case umull | umlal | smull | smlal =>
    refine (conditional_framed h fun t h => ?_).instrFramed
    exact multiplyLong_framed (checked_next.mp h).2 List.mem_cons_self (.tail _ List.mem_cons_self)
      (by simp +contextual [effects])
  case swp | swpb =>
    refine (conditional_framed h fun t h => ?_).instrFramed
    exact swap_framed h List.mem_cons_self List.mem_cons_self
  case bx =>
    refine (conditional_framed h fun t h => ?_).instrFramed
    exact branchExchange_framed h rfl
  case ldrImm | ldrtImm =>
    refine (conditional_framed h fun t h => ?_).instrFramed
    exact loadSingle_framed_effects h
  case ldrReg | ldrtReg | ldrbImm | ldrbtImm | ldrhImm | ldrsbImm | ldrshImm =>
    refine (conditional_framed h fun t h => ?_).instrFramed
    exact loadSingle_framed_effects (checked_next.mp h).2
  case ldrbReg | ldrbtReg | ldrhReg | ldrsbReg | ldrshReg =>
    refine (conditional_framed h fun t h => ?_).instrFramed
    exact loadSingle_framed_effects (checked_next.mp (checked_next.mp h).2).2
  case strImm | strtImm =>
    refine (conditional_framed h fun t h => ?_).instrFramed
    exact storeSingle_framed_effects h
  case strReg | strtReg | strbImm | strbtImm | strhImm =>
    refine (conditional_framed h fun t h => ?_).instrFramed
    exact storeSingle_framed_effects (checked_next.mp h).2
  case strbReg | strbtReg | strhReg =>
    refine (conditional_framed h fun t h => ?_).instrFramed
    exact storeSingle_framed_effects (checked_next.mp (checked_next.mp h).2).2
  case ldmia | ldmib | ldmda | ldmdb =>
    refine (conditional_framed h fun t h => ?_).instrFramed
    exact blockLoad_framed h
  case stmia | stmib | stmda | stmdb =>
    refine (conditional_framed h fun t h => ?_).instrFramed
    exact blockStore_framed h
  case b | tBcond =>
    refine (conditional_framed h fun t h => ?_).instrFramed
    exact branchTo_framed h
  case bl =>
    refine (conditional_framed h fun t h => ?_).instrFramed
    exact (Framed.writeReg s _ (.inr List.mem_cons_self)).trans (branchTo_framed h)
  case swi =>
    refine (conditional_framed h fun t h => ?_).instrFramed
    exact softwareInterrupt_framed h
  case tLslImm | tLsrImm | tAsrImm | tLslReg | tLsrReg | tAsrReg | tRor | tAddReg | tSubReg | tAddImm3 | tSubImm3 |
      tAddImm8 | tSubImm8 | tAdc | tSbc | tNeg =>
    simp only [exec_tLslImm, exec_tLsrImm, exec_tAsrImm, exec_tLslReg, exec_tLsrReg, exec_tAsrReg, exec_tRor, exec_tAddReg,
      exec_tSubReg, exec_tAddImm3, exec_tSubImm3, exec_tAddImm8, exec_tSubImm8, exec_tAdc, exec_tSbc, exec_tNeg] at h
    refine (thumbAlu_framed h (.inr List.mem_cons_self) ?_ ?_ ?_).instrFramed <;> simp [effects, alu]
  case tMovImm | tAnd | tEor | tOrr | tBic | tMvn =>
    simp only [exec_tMovImm, exec_tAnd, exec_tEor, exec_tOrr, exec_tBic, exec_tMvn] at h
    refine (thumbAlu_framed h (.inr List.mem_cons_self) ?_ ?_ ?_).instrFramed <;> simp [effects, alu, plain]
  case tTst =>
    simp only [exec_tTst] at h
    refine (thumbAlu_framed h (.inl rfl) ?_ ?_ ?_).instrFramed <;> simp [effects, alu, plain]
  case tCmpImm | tCmpReg | tCmn =>
    simp only [exec_tCmpImm, exec_tCmpReg, exec_tCmn] at h
    refine (thumbAlu_framed h (.inl rfl) ?_ ?_ ?_).instrFramed <;> simp [effects]
  case tMul => exact (multiply_framed (checked_next.mp h).2 List.mem_cons_self (by simp [effects])).instrFramed
  case tAddHi | tMovHi =>
    exact (dataProcess_framed (checked_next.mp h).2 (.inr (.inr List.mem_cons_self)) (by simp) (by simp [isTest])).instrFramed
  case tCmpHi => exact (dataProcess_framed (checked_next.mp h).2 (.inl rfl) (by simp [isTest]) (by simp [effects])).instrFramed
  case tBx => exact (branchExchange_framed (checked_next.mp h).2 rfl).instrFramed
  case tLdrPc | tLdrReg | tLdrbReg | tLdsb | tLdrhReg | tLdsh | tLdrImm | tLdrbImm | tLdrhImm | tLdrSp =>
    exact (loadFrom_framed h (.inr List.mem_cons_self) (by simp)).instrFramed
  case tStrReg | tStrbReg | tStrhReg | tStrImm | tStrbImm | tStrhImm | tStrSp =>
    exact (storeTo_framed h List.mem_cons_self (by simp)).instrFramed
  case tAddPc | tAddSp | tAddSpImm | tSubSpImm | tBlHi => exact (writeAddress_framed h List.mem_cons_self).instrFramed
  case tPush | tStmia => exact (blockStore_framed h).instrFramed
  case tPop | tLdmia => exact (blockLoad_framed h).instrFramed
  case tSwi => exact (softwareInterrupt_framed h).instrFramed
  case tB => exact (branchTo_framed h).instrFramed
  case tBlLo => exact ((Framed.writeReg s _ (.inr List.mem_cons_self)).trans (branchTo_framed h)).instrFramed

/-- Settles O47, by the frame of each instruction. -/
theorem frameRegisters : Obligations.FrameRegisters := fun _ _ _ h => (exec_framed h).regs

/-- Settles O48: in a well-formed state the reserved bits of the CPSR are 0, as the frame of MSR needs. -/
theorem frameStatus : Obligations.FrameStatus := by
  intro i s t hwf h
  have hf := (exec_framed h).status hwf.cpsr
  exact ⟨hf.flags, hf.control, hf.spsrs, hf.inputs⟩

/-- Settles O49, by the frame of each instruction. -/
theorem frameMemory : Obligations.FrameMemory := fun _ _ _ h => (exec_framed h).memory

end Sys2Proof.Machine

/-! User mode is left by exceptions alone (O55). -/

namespace Sys2Proof.Machine

/-- The mode, I, F and every SPSR are those of another state. -/
structure ModeKept (s t : State) : Prop where
  mode : psrM t.cpsr = psrM s.cpsr
  irq : psrI t.cpsr = psrI s.cpsr
  fiq : psrF t.cpsr = psrF s.cpsr
  spsrs : ∀ m, t.spsrOf m = s.spsrOf m

/-- What the effects spare of the CPSR below the flags and of the SPSRs. -/
theorem Framed.modeKept {e : Effects} {s t : State} (h : Framed e s t) (hc : e.control = false) (hs : e.spsr = false) :
    ModeKept s t := by
  have hlow := h.control hc
  have hbit : ∀ k < 28, t.cpsr.getLsbD k = s.cpsr.getLsbD k := by
    intro k hk
    simpa [hk] using congrArg (fun x : BitVec 28 => x.getLsbD k) hlow
  have hfield : psrM t.cpsr = psrM s.cpsr := by
    have hx := congrArg (fun x : BitVec 28 => x.extractLsb' 0 5) hlow
    rwa [extract_extract _ (by decide), extract_extract _ (by decide)] at hx
  obtain ⟨h1, h2, h3, h4, h5⟩ := h.spsrs hs
  refine ⟨hfield, hbit 7 (by decide), hbit 6 (by decide), fun m => ?_⟩
  cases m <;> simp [State.spsrOf, h1, h2, h3, h4, h5]

/-- Data processing that returns from no exception names neither the control byte nor an SPSR. -/
theorem dpEffects_status {op : AluOp} {sf : Bool} {rd : Reg} (s : State) (h : ¬ (sf && rd = 15 && !isTest op) = true) :
    (dpEffects op sf rd s).control = false ∧ (dpEffects op sf rd s).spsr = false := by
  simp only [dpEffects, if_neg h]
  cases op <;> exact ⟨rfl, rfl⟩

section UserMode
variable {s : State} (huser : s.mode = .usr)
include huser

/-- A return from an exception finds no SPSR (R62), and no other data processing touches the control byte. -/
theorem dataProcess_modeKept {op : AluOp} {sf : Bool} {rd : Reg} {a : Word} {o : Shifted} {x : Word} {t : State}
    (h : dataProcess op sf rd a o x s = .next t) (hsf : isTest op = true → sf = true) : ModeKept s t := by
  have hf := dataProcess_framed_arm h hsf
  by_cases hret : (sf && rd = 15 && !isTest op) = true
  · obtain ⟨⟨rfl, rfl⟩, hop⟩ : (sf = true ∧ rd = 15) ∧ isTest op = false := by simpa using hret
    rw [dataProcess_unavailable (spsr_eq_none (.inl huser)) hop] at h
    cases h
  · exact hf.modeKept (dpEffects_status s hret).1 (dpEffects_status s hret).2

/-- A load of R15 with S = 1 finds no SPSR (R62), and no other LDM touches the control byte. -/
theorem blockLoad_modeKept {p u ub w : Bool} {rn : Reg} {list : BitVec 16} {t : State}
    (h : blockLoad p u ub w rn list s = .next t) : ModeKept s t := by
  refine (blockLoad_framed h).modeKept ?_ rfl
  by_contra hret
  obtain ⟨q, -, hq⟩ := checkedBlock_next h
  have hspsr := (hq (by simpa [ldmEffects] using hret)).1
  rw [spsr_eq_none (.inl huser)] at hspsr
  cases hspsr

/-- MSR of the CPSR leaves the control byte in User mode (R287), and MSR of an SPSR finds none (R62). -/
theorem moveToPsr_modeKept {spsr : Bool} {mask : PsrMask} {fromPc : Bool} {v : Word} {t : State}
    (h : moveToPsr spsr mask fromPc v s = .next t) : ModeKept s t := by
  cases spsr with
  | true =>
    rw [moveToPsr_unavailable (spsr_eq_none (.inl huser))] at h
    cases h
  | false =>
    have hk := (checked_next.mp h).2
    split at hk
    · cases hk
    · obtain rfl := Host.Outcome.next.inj hk
      have hp : ∀ m, (((s.chargeCode .S).writeCpsr (msrCpsr s.readCpsr v mask s.mode.privileged)).finish false).spsrOf m =
          s.spsrOf m := fun m => by cases m <;> simp [State.spsrOf]
      refine ⟨?_, ?_, ?_, hp⟩ <;> cases hm : mask.f <;> simp [msrCpsr, huser, Mode.privileged, hm, State.readCpsr]

end UserMode

/-- BX changes T alone of the control byte (R373). -/
theorem branchExchange_modeKept {v : Word} {s t : State} (h : branchExchange v s = .next t) : ModeKept s t := by
  obtain rfl := Host.Outcome.next.inj h
  refine ⟨by simp, by simp, by simp, fun m => ?_⟩
  cases m <;> simp [State.spsrOf]

/-- A condition that fails keeps the mode. -/
theorem conditional_modeKept {c : Cond} {s t : State} {body : Result} (h : conditional c s body = .next t)
    (hb : ∀ t, body = .next t → ModeKept s t) : ModeKept s t := by
  rcases conditional_next h with ⟨-, h⟩ | ⟨-, rfl⟩
  · exact hb t h
  · exact ((Framed.chargeCondFail {} s).trans (Framed.advance {} _)).modeKept rfl rfl

/-- In User mode the instructions whose effects name the control byte or an SPSR keep the mode, but for SWI; the others do by
their frame. -/
theorem exec_modeKept {i : Instr} {s t : State} (hwf : s.WellFormed) (huser : s.mode = .usr) (h : exec i s = .next t) :
    (∃ cond comment, i = .swi cond comment) ∨ (∃ comment, i = .tSwi comment) ∨ ModeKept s t := by
  have hf := (exec_framed h).status hwf.cpsr
  cases i
  case swi => exact .inl ⟨_, _, rfl⟩
  case tSwi => exact .inr (.inl ⟨_, rfl⟩)
  case andImm | eorImm | subImm | rsbImm | addImm | adcImm | sbcImm | rscImm | tstImm | teqImm | cmpImm | cmnImm | orrImm |
      movImm | bicImm | mvnImm | andShimm | eorShimm | subShimm | rsbShimm | addShimm | adcShimm | sbcShimm | rscShimm |
      tstShimm | teqShimm | cmpShimm | cmnShimm | orrShimm | movShimm | bicShimm | mvnShimm =>
    refine .inr (.inr (conditional_modeKept h fun t h => ?_))
    exact dataProcess_modeKept huser h (by simp [isTest])
  case andShreg | eorShreg | subShreg | rsbShreg | addShreg | adcShreg | sbcShreg | rscShreg | tstShreg | teqShreg |
      cmpShreg | cmnShreg | orrShreg | movShreg | bicShreg | mvnShreg =>
    refine .inr (.inr (conditional_modeKept h fun t h => ?_))
    exact dataProcess_modeKept huser (checked_next.mp h).2 (by simp [isTest])
  case msrReg | msrImm =>
    refine .inr (.inr (conditional_modeKept h fun t h => ?_))
    exact moveToPsr_modeKept huser h
  case ldmia | ldmib | ldmda | ldmdb =>
    refine .inr (.inr (conditional_modeKept h fun t h => ?_))
    exact blockLoad_modeKept huser h
  case bx =>
    refine .inr (.inr (conditional_modeKept h fun t h => ?_))
    exact branchExchange_modeKept h
  case tBx => exact .inr (.inr (branchExchange_modeKept (checked_next.mp h).2))
  case tPop | tLdmia => exact .inr (.inr (blockLoad_modeKept huser h))
  all_goals exact .inr (.inr (hf.modeKept rfl rfl))

/-- Settles O55: what keeps the mode field keeps the mode. -/
theorem userModeLeftOnlyByException : Obligations.UserModeLeftOnlyByException := by
  intro i s t hwf huser h
  refine (exec_modeKept hwf huser h).imp id (Or.imp id fun ⟨hm, hi, hfq, hs⟩ => ⟨?_, hi, hfq, hs⟩)
  rw [← huser, State.mode, State.mode, hm]

end Sys2Proof.Machine

/-! A step gives the same state whatever the cycle clock and the two parameters that only cost cycles (O56). -/

namespace Sys2Proof.Machine

/-! ## States and results without their timing -/

/-- A state with the cycle clock, its last output, and the parameters that only cost cycles put to fixed values. -/
def State.untimed (s : State) : State :=
  { s with cycles := 0, cyclesOut := 0, config := { s.config with waitTable := [], condFailCycles := .zero } }

/-- A result whose next state is without its timing. -/
def untimedResult : Result → Result
  | .next t => .next t.untimed
  | .fault r => .fault r
  | .refused r => .refused r

/-- Two results that differ in the timing of their next states at most. -/
def Agree (r r' : Result) : Prop := untimedResult r = untimedResult r'

/-- The first state with the timing of the second. -/
def State.timedAs (s u : State) : State :=
  { s with
    cycles := u.cycles
    cyclesOut := u.cyclesOut
    config := { s.config with waitTable := u.config.waitTable, condFailCycles := u.config.condFailCycles } }

theorem sameButTiming_iff {s u : State} : SameButTiming s u ↔ s.untimed = u.untimed := by
  constructor
  · intro (h : u = s.timedAs u)
    exact (congrArg State.untimed h).symm
  · intro h
    exact (congrArg (fun x : State => x.timedAs u) h).symm

theorem Agree.next {t t' : State} (h : t.untimed = t'.untimed) : Agree (.next t) (.next t') := congrArg Host.Outcome.next h

theorem Agree.trans {r r' r'' : Result} (h : Agree r r') (k : Agree r' r'') : Agree r r'' := Eq.trans h k

theorem Agree.symm {r r' : Result} (h : Agree r r') : Agree r' r := Eq.symm h

/-! ## Reads -/

section Reads
variable (s : State)

@[simp] theorem untimed_flagC : s.untimed.flagC = s.flagC := rfl
@[simp] theorem untimed_flagV : s.untimed.flagV = s.flagV := rfl
@[simp] theorem untimed_mode : s.untimed.mode = s.mode := rfl
@[simp] theorem untimed_spsr : s.untimed.spsr = s.spsr := rfl
@[simp] theorem untimed_readCpsr : s.untimed.readCpsr = s.readCpsr := rfl
@[simp] theorem untimed_pc : s.untimed.pc = s.pc := rfl
@[simp] theorem untimed_ilen : s.untimed.ilen = s.ilen := rfl
@[simp] theorem untimed_readReg (n : Reg) : s.untimed.readReg n = s.readReg n := rfl
@[simp] theorem untimed_memRead32 (a : Word) : s.untimed.memRead32 a = s.memRead32 a := rfl

@[simp] theorem untimed_loadValue (k : LoadKind) (a : Word) : loadValue k s.untimed a = loadValue k s a := by
  cases k <;> rfl

@[simp] theorem untimed_blockStoreValue (ub w : Bool) (rn : Reg) (list : BitVec 16) (v : Word) :
    blockStoreValue ub w rn list v s.untimed = blockStoreValue ub w rn list v s := rfl

end Reads

/-! ## Updates -/

section Updates
variable (s : State)

@[simp] theorem untimed_charge (a : Word) (w : Width) (k : AccessClass) : (s.charge a w k).untimed = s.untimed := rfl
@[simp] theorem untimed_chargeCode (k : AccessClass) : (s.chargeCode k).untimed = s.untimed := rfl
@[simp] theorem untimed_internal (k : Word) : (s.internal k).untimed = s.untimed := rfl
@[simp] theorem untimed_untimed : s.untimed.untimed = s.untimed := rfl
@[simp] theorem untimed_drain : s.drain.untimed = s.untimed := rfl
@[simp] theorem untimed_writePc (v : Word) : (s.writePc v).untimed = s.untimed.writePc v := rfl
@[simp] theorem untimed_advance : s.advance.untimed = s.untimed.advance := rfl
@[simp] theorem untimed_writeFlags (n z c v : Bool) : (s.writeFlags n z c v).untimed = s.untimed.writeFlags n z c v := rfl
@[simp] theorem untimed_writeThumb (t : Bool) : (s.writeThumb t).untimed = s.untimed.writeThumb t := rfl
@[simp] theorem untimed_writeCpsr (v : Word) : (s.writeCpsr v).untimed = s.untimed.writeCpsr v := rfl
@[simp] theorem untimed_memWrite32 (a v : Word) : (s.memWrite32 a v).untimed = s.untimed.memWrite32 a v := rfl

@[simp] theorem untimed_setNZ (r : Word) : (s.setNZ r).untimed = s.untimed.setNZ r := rfl
@[simp] theorem untimed_setNZ64 (r : BitVec 64) : (s.setNZ64 r).untimed = s.untimed.setNZ64 r := rfl

@[simp] theorem untimed_returnFromException (p v : Word) :
    (s.returnFromException p v).untimed = s.untimed.returnFromException p v := rfl

@[simp] theorem untimed_finish (b : Bool) : (s.finish b).untimed = if b then s.untimed else s.untimed.advance := by
  cases b <;> rfl

@[simp] theorem untimed_chargeCondFail : s.chargeCondFail.untimed = s.untimed := by
  unfold State.chargeCondFail; split <;> rfl

@[simp] theorem untimed_writePhys (r : PhysReg) (v : Word) : (s.writePhys r v).untimed = s.untimed.writePhys r v := by
  cases r <;> rfl

@[simp] theorem untimed_writeBank (m : Mode) (n : Reg) (v : Word) : (s.writeBank m n v).untimed = s.untimed.writeBank m n v :=
  untimed_writePhys s _ v

@[simp] theorem untimed_writeReg (n : Reg) (v : Word) : (s.writeReg n v).untimed = s.untimed.writeReg n v :=
  untimed_writePhys s _ v

@[simp] theorem untimed_writeSpsrOf (m : Mode) (v : Word) : (s.writeSpsrOf m v).untimed = s.untimed.writeSpsrOf m v := by
  cases m <;> rfl

@[simp] theorem untimed_storeAt (k : StoreKind) (a v : Word) : (storeAt k a v s).untimed = storeAt k a v s.untimed := by
  cases k <;> rfl

@[simp] theorem untimed_writeBase (wb : Option (Reg × Word)) : (writeBase wb s).untimed = writeBase wb s.untimed := by
  cases wb with
  | none => rfl
  | some p => exact untimed_writeReg s _ _

@[simp] theorem untimed_writeLoaded (wb : Option (Reg × Word)) (rd : Reg) (v : Word) :
    (writeLoaded wb rd v s).untimed = writeLoaded wb rd v s.untimed := by
  unfold writeLoaded; split <;> simp

@[simp] theorem untimed_takeException (m : Mode) (vector lr : Word) (setF : Bool) :
    (s.takeException m vector lr setF).untimed = s.untimed.takeException m vector lr setF := by
  cases m <;> rfl

@[simp] theorem untimed_chargeWords (n : Nat) (a : Word) (k : AccessClass) : (State.chargeWords n a k s).untimed = s.untimed := by
  induction n generalizing a k s with
  | zero => rfl
  | succ n ih => exact ih _ _ _

@[simp] theorem untimed_loadRegs (m : Mode) (a : Word) (l : List Reg) :
    (loadRegs m a l s).untimed = loadRegs m a l s.untimed := by
  induction l generalizing a s with
  | nil => rfl
  | cons r rest ih => rw [loadRegs, ih, untimed_writeBank]; rfl

/-- The charges between the stores of a block keep them from commuting with the erasure outright. -/
theorem untimed_storeRegs (val : Reg → Word) (a : Word) (k : AccessClass) (l : List Reg) :
    (storeRegs val a k l s).untimed = (storeRegs val a k l s.untimed).untimed := by
  induction l generalizing a k s with
  | nil => rfl
  | cons r rest ih => rw [storeRegs, ih, storeRegs, ih ((s.untimed.charge _ _ _).memWrite32 _ _)]; rfl

end Updates

/-! ## Checks -/

section Checks
variable {s : State} {k k' : Result}

theorem Agree.conditional {c : Cond} (h : Agree k k') : Agree (conditional c s k) (conditional c s.untimed k') := by
  show Agree _ (if c = .nv ∧ s.config.nvCond = .fault then _ else if s.condPasses c then _ else _)
  rw [Machine.conditional]
  split
  · rfl
  · split
    · exact h
    · exact .next (by simp)

theorem Agree.checked {bad : Bool} {c : UnpredictableCase} (h : Agree k k') :
    Agree (s.checked bad c k) (s.untimed.checked bad c k') := by
  show Agree _ (if s.config.strictUnpredictable && bad then _ else _)
  rw [State.checked]
  split
  · rfl
  · exact h

theorem Agree.checkedPrefetch {hit : Bool} (h : Agree k k') :
    Agree (s.checkedPrefetch hit k) (s.untimed.checkedPrefetch hit k') := by
  show Agree _ (if s.config.prefetchHazard = .fault ∧ hit then _ else _)
  rw [State.checkedPrefetch]
  split
  · rfl
  · exact h

theorem Agree.withReturnPsr {f f' : Word → Result} (h : ∀ p, Agree (f p) (f' p)) :
    Agree (s.withReturnPsr f) (s.untimed.withReturnPsr f') := by
  unfold State.withReturnPsr
  rw [untimed_spsr]
  cases s.spsr with
  | none => rfl
  | some p =>
    cases hm : Mode.ofBits? (psrM p) with
    | none => simp only [hm]; rfl
    | some m => simpa only [hm] using h p

theorem Agree.checkedBlock {list : BitVec 16} {isReturn ub w notFirst : Bool} {rn : Reg} {f f' : Word → Result}
    (h : ∀ p, Agree (f p) (f' p)) :
    Agree (checkedBlock list isReturn ub w notFirst rn s f) (checkedBlock list isReturn ub w notFirst rn s.untimed f') := by
  show Agree _ (if list = 0 ∧ s.config.emptyRlist = .fault then _ else _)
  rw [Machine.checkedBlock]
  split
  · rfl
  · refine .checked (.checked ?_)
    split
    · exact .withReturnPsr fun p => .checked (h p)
    · exact .checked (h 0)

end Checks

/-! ## The shared bodies -/

section Bodies
variable (s : State)

theorem dataProcess_agree (op : AluOp) (sf : Bool) (rd : Reg) (a : Word) (o : Shifted) (x : Word) :
    Agree (dataProcess op sf rd a o x s) (dataProcess op sf rd a o x s.untimed) := by
  unfold dataProcess
  dsimp only
  split
  · exact .next (by simp)
  · split
    · exact .withReturnPsr fun p => .next (by simp)
    · split
      · exact .next (by simp)
      · exact .next (by simp)

theorem loadFrom_agree (k : LoadKind) (rd : Reg) (a : Word) (wb : Option (Reg × Word)) :
    Agree (loadFrom k rd a wb s) (loadFrom k rd a wb s.untimed) := .next (by simp)

theorem storeTo_agree (k : StoreKind) (a v : Word) (wb : Option (Reg × Word)) :
    Agree (storeTo k a v wb s) (storeTo k a v wb s.untimed) := .checkedPrefetch (.next (by simp))

theorem loadSingle_agree (k : LoadKind) (p u w : Bool) (rn rd : Reg) (off : Word) :
    Agree (loadSingle k p u w rn rd off s) (loadSingle k p u w rn rd off s.untimed) := .checked (loadFrom_agree s _ _ _ _)

theorem storeSingle_agree (k : StoreKind) (p u w : Bool) (rn rd : Reg) (off : Word) :
    Agree (storeSingle k p u w rn rd off s) (storeSingle k p u w rn rd off s.untimed) := .checked (storeTo_agree s _ _ _ _)

theorem blockLoad_agree (p u ub w : Bool) (rn : Reg) (list : BitVec 16) :
    Agree (blockLoad p u ub w rn list s) (blockLoad p u ub w rn list s.untimed) := by
  refine .checkedBlock fun q => .next ?_
  simp [apply_ite State.untimed]

theorem blockStore_agree (p u ub w : Bool) (rn : Reg) (list : BitVec 16) :
    Agree (blockStore p u ub w rn list s) (blockStore p u ub w rn list s.untimed) := by
  refine .checkedBlock fun q => .checkedPrefetch (.next ?_)
  simp [untimed_storeRegs (s.chargeCode .N), untimed_storeRegs (s.untimed.chargeCode .N)]

theorem swap_agree (lk : LoadKind) (sk : StoreKind) (rn rd rm : Reg) :
    Agree (swap lk sk rn rd rm s) (swap lk sk rn rd rm s.untimed) := by
  exact .checked (.checkedPrefetch (.next (by simp)))

theorem multiply_agree (sf : Bool) (rd : Reg) (res m : Word) :
    Agree (multiply sf rd res m s) (multiply sf rd res m s.untimed) := by
  cases sf <;> exact .next (by simp)

theorem multiplyLong_agree (sf : Bool) (rdHi rdLo : Reg) (res : BitVec 64) (m : Word) :
    Agree (multiplyLong sf rdHi rdLo res m s) (multiplyLong sf rdHi rdLo res m s.untimed) := by
  cases sf <;> exact .next (by simp)

theorem moveFromPsr_agree (spsr : Bool) (rd : Reg) : Agree (moveFromPsr spsr rd s) (moveFromPsr spsr rd s.untimed) := by
  unfold moveFromPsr
  rw [untimed_spsr, untimed_readCpsr]
  cases if spsr then s.spsr else some s.readCpsr with
  | none => rfl
  | some v => exact .checked (.next (by simp))

theorem moveToCpsr_agree (mask : PsrMask) (fromPc : Bool) (v : Word) :
    Agree (moveToCpsr mask fromPc v s) (moveToCpsr mask fromPc v s.untimed) := by
  refine .checked ?_
  rw [untimed_readCpsr, untimed_mode]
  cases Mode.ofBits? (psrM (msrCpsr s.readCpsr v mask s.mode.privileged)) with
  | none => rfl
  | some m => exact .next (by simp)

theorem moveToSpsr_agree (mask : PsrMask) (fromPc : Bool) (v : Word) :
    Agree (moveToSpsr mask fromPc v s) (moveToSpsr mask fromPc v s.untimed) := by
  unfold moveToSpsr
  rw [untimed_spsr]
  cases s.spsr with
  | none => rfl
  | some p => exact .checked (.next (by simp))

theorem moveToPsr_agree (spsr : Bool) (mask : PsrMask) (fromPc : Bool) (v : Word) :
    Agree (moveToPsr spsr mask fromPc v s) (moveToPsr spsr mask fromPc v s.untimed) := by
  cases spsr with
  | true => exact moveToSpsr_agree s mask fromPc v
  | false => exact moveToCpsr_agree s mask fromPc v

theorem branchTo_agree (v : Word) : Agree (branchTo v s) (branchTo v s.untimed) := .next (by simp)

/-- A branch that links first. -/
theorem branchTo_link_agree (v link : Word) :
    Agree (branchTo v (s.writeReg 14 link)) (branchTo v (s.untimed.writeReg 14 link)) := .next (by simp)

theorem branchExchange_agree (v : Word) : Agree (branchExchange v s) (branchExchange v s.untimed) := .next (by simp)

theorem softwareInterrupt_agree : Agree (softwareInterrupt s) (softwareInterrupt s.untimed) :=
  .next (by simp only [State.takeSwi, untimed_finish, untimed_takeException, untimed_chargeCode, untimed_untimed]; rfl)

theorem writeAddress_agree (rd : Reg) (v : Word) : Agree (writeAddress rd v s) (writeAddress rd v s.untimed) := .next (by simp)

end Bodies
/-! ## Every instruction and every step -/

/-- Each instruction reads its operands from what the erasure leaves, so its body agrees. -/
theorem exec_agree (i : Instr) (s : State) : Agree (exec i s) (exec i s.untimed) := by
  cases i
  case andImm | eorImm | subImm | rsbImm | addImm | adcImm | sbcImm | rscImm | tstImm | teqImm | cmpImm | cmnImm | orrImm |
      movImm | bicImm | mvnImm | andShimm | eorShimm | subShimm | rsbShimm | addShimm | adcShimm | sbcShimm | rscShimm |
      tstShimm | teqShimm | cmpShimm | cmnShimm | orrShimm | movShimm | bicShimm | mvnShimm =>
    exact .conditional (dataProcess_agree s _ _ _ _ _ _)
  case andShreg | eorShreg | subShreg | rsbShreg | addShreg | adcShreg | sbcShreg | rscShreg | tstShreg | teqShreg |
      cmpShreg | cmnShreg | orrShreg | movShreg | bicShreg | mvnShreg =>
    exact .conditional (.checked (dataProcess_agree s _ _ _ _ _ _))
  case mrs => exact .conditional (moveFromPsr_agree s _ _)
  case msrReg | msrImm => exact .conditional (moveToPsr_agree s _ _ _ _)
  case mul | mla => exact .conditional (.checked (multiply_agree s _ _ _ _))
  case umull | umlal | smull | smlal => exact .conditional (.checked (multiplyLong_agree s _ _ _ _ _))
  case swp | swpb => exact .conditional (swap_agree s _ _ _ _ _)
  case bx => exact .conditional (branchExchange_agree s _)
  case ldrImm | ldrtImm => exact .conditional (loadSingle_agree s _ _ _ _ _ _ _)
  case ldrReg | ldrtReg | ldrbImm | ldrbtImm | ldrhImm | ldrsbImm | ldrshImm =>
    exact .conditional (.checked (loadSingle_agree s _ _ _ _ _ _ _))
  case ldrbReg | ldrbtReg | ldrhReg | ldrsbReg | ldrshReg =>
    exact .conditional (.checked (.checked (loadSingle_agree s _ _ _ _ _ _ _)))
  case strImm | strtImm => exact .conditional (storeSingle_agree s _ _ _ _ _ _ _)
  case strReg | strtReg | strbImm | strbtImm | strhImm => exact .conditional (.checked (storeSingle_agree s _ _ _ _ _ _ _))
  case strbReg | strbtReg | strhReg => exact .conditional (.checked (.checked (storeSingle_agree s _ _ _ _ _ _ _)))
  case ldmia | ldmib | ldmda | ldmdb => exact .conditional (blockLoad_agree s _ _ _ _ _ _)
  case stmia | stmib | stmda | stmdb => exact .conditional (blockStore_agree s _ _ _ _ _ _)
  case b | tBcond => exact .conditional (branchTo_agree s _)
  case bl => exact .conditional (branchTo_link_agree s _ _)
  case swi => exact .conditional (softwareInterrupt_agree s)
  case tLslImm | tLsrImm | tAsrImm | tAddReg | tSubReg | tAddImm3 | tSubImm3 | tMovImm | tCmpImm | tAddImm8 | tSubImm8 |
      tAnd | tEor | tLslReg | tLsrReg | tAsrReg | tAdc | tSbc | tRor | tTst | tNeg | tCmpReg | tCmn | tOrr | tBic | tMvn =>
    simp only [exec_tLslImm, exec_tLsrImm, exec_tAsrImm, exec_tAddReg, exec_tSubReg, exec_tAddImm3, exec_tSubImm3, exec_tMovImm,
      exec_tCmpImm, exec_tAddImm8, exec_tSubImm8, exec_tAnd, exec_tEor, exec_tLslReg, exec_tLsrReg, exec_tAsrReg, exec_tAdc,
      exec_tSbc, exec_tRor, exec_tTst, exec_tNeg, exec_tCmpReg, exec_tCmn, exec_tOrr, exec_tBic, exec_tMvn]
    exact dataProcess_agree s _ _ _ _ _ _
  case tAddHi | tCmpHi | tMovHi => exact .checked (dataProcess_agree s _ _ _ _ _ _)
  case tMul => exact .checked (multiply_agree s _ _ _ _)
  case tBx => exact .checked (branchExchange_agree s _)
  case tLdrPc | tLdrReg | tLdrbReg | tLdsb | tLdrhReg | tLdsh | tLdrImm | tLdrbImm | tLdrhImm | tLdrSp =>
    exact loadFrom_agree s _ _ _ _
  case tStrReg | tStrbReg | tStrhReg | tStrImm | tStrbImm | tStrhImm | tStrSp => exact storeTo_agree s _ _ _ _
  case tAddPc | tAddSp | tAddSpImm | tSubSpImm | tBlHi => exact writeAddress_agree s _ _
  case tPush | tStmia => exact blockStore_agree s _ _ _ _ _ _
  case tPop | tLdmia => exact blockLoad_agree s _ _ _ _ _ _
  case tSwi => exact softwareInterrupt_agree s
  case tB => exact branchTo_agree s _
  case tBlLo => exact branchTo_link_agree s _ _

theorem runInstr_agree (s : State) : Agree s.runInstr s.untimed.runInstr := by
  show Agree _ (match decode s.fetch with | .undefined raw index isa => _ | .instr i => exec i s.untimed)
  rw [State.runInstr]
  cases decode s.fetch with
  | instr i => exact exec_agree i s
  | undefined raw index isa => rfl

/-- Neither the sampling of the interrupts nor an entry looks at the timing. -/
theorem afterSampling_agree (s : State) (inp : EnvStep) : Agree (s.afterSampling inp) (s.untimed.afterSampling inp) := by
  show Agree _ (if s.fiqTaken inp then _ else if s.irqTaken inp then _ else _)
  rw [State.afterSampling]
  split
  · exact .next (by simp [State.takeFiq])
  · split
    · exact .next (by simp [State.takeIrq])
    · exact runInstr_agree s

theorem Agree.drained {r r' : Result} (h : Agree r r') : Agree (drained r) (drained r') := by
  cases r <;> cases r' <;> exact h

theorem step_agree (s : State) : Agree (step s) (step s.untimed) := (afterSampling_agree s.afterInput s.nextInput).drained

/-- A result that agrees with a next state is one, with the same state but for its timing. -/
theorem Agree.next_left {t : State} {r : Result} (h : Agree (.next t) r) : ∃ v, r = .next v ∧ SameButTiming t v := by
  cases r with
  | next v => exact ⟨v, rfl, sameButTiming_iff.mpr (Host.Outcome.next.inj h)⟩
  | fault c => cases h
  | refused c => cases h

theorem Agree.fault_left {c : Fault} {r : Result} (h : Agree (.fault c) r) : r = .fault c := by
  cases r with
  | next v => cases h
  | fault c' => exact Eq.symm h
  | refused c' => cases h

/-- Settles O56: both steps agree with the step of the one state that the erasure makes of either. -/
theorem timingIsUnobservable : Obligations.TimingIsUnobservable := by
  intro s u h
  have hagree : Agree (step s) (step u) := by
    refine (step_agree s).trans ?_
    rw [sameButTiming_iff.mp h]
    exact (step_agree u).symm
  refine ⟨fun t ht => ?_, fun r hr => ?_⟩
  · exact (ht ▸ hagree).next_left
  · exact (hr ▸ hagree).fault_left

end Sys2Proof.Machine

/-! What a step does once it has sampled its input (R605): the three cases, and the interrupts a state takes. -/

namespace Sys2Proof.Machine

theorem fiqTaken_iff (s : State) : s.afterInput.fiqTaken s.nextInput = true ↔
    s.config.fiqPresent = true ∧ (s.env.headD {}).fiq = true ∧ psrF s.cpsr = false := by
  simp [State.fiqTaken, State.nextInput, and_assoc]

theorem irqTaken_iff (s : State) : s.afterInput.irqTaken s.nextInput = true ↔
    (s.env.headD {}).irq = true ∧ psrI s.cpsr = false := by
  simp [State.irqTaken, State.nextInput]

theorem noInterrupt_iff (s : State) : NoInterrupt s ↔
    s.afterInput.fiqTaken s.nextInput = false ∧ s.afterInput.irqTaken s.nextInput = false := by
  rw [← Bool.not_eq_true, ← Bool.not_eq_true, fiqTaken_iff, irqTaken_iff]
  simp [NoInterrupt]

theorem step_of_fiqTaken {s : State} (h : s.afterInput.fiqTaken s.nextInput = true) :
    step s = .next ((s.afterInput.chargeCode .S).takeFiq.finish true).drain := by
  rw [step, State.afterSampling, if_pos h]
  rfl

theorem step_of_irqTaken {s : State} (hf : s.afterInput.fiqTaken s.nextInput = false)
    (h : s.afterInput.irqTaken s.nextInput = true) :
    step s = .next ((s.afterInput.chargeCode .S).takeIrq.finish true).drain := by
  rw [step, State.afterSampling, if_neg (by simp [hf]), if_pos h]
  rfl

theorem step_of_noInterrupt {s : State} (h : NoInterrupt s) : step s = drained s.afterInput.runInstr := by
  obtain ⟨hf, hi⟩ := (noInterrupt_iff s).mp h
  rw [step, State.afterSampling, if_neg (by simp [hf]), if_neg (by simp [hi])]

/-- A step that takes an interrupt is one of the two entries. -/
theorem step_of_interrupt {s t : State} (hint : ¬ NoInterrupt s) (h : step s = .next t) :
    t = ((s.afterInput.chargeCode .S).takeFiq.finish true).drain ∨
      t = ((s.afterInput.chargeCode .S).takeIrq.finish true).drain := by
  cases hf : s.afterInput.fiqTaken s.nextInput with
  | true => exact .inl (Host.Outcome.next.inj (h.symm.trans (step_of_fiqTaken hf)))
  | false =>
    cases hi : s.afterInput.irqTaken s.nextInput with
    | true => exact .inr (Host.Outcome.next.inj (h.symm.trans (step_of_irqTaken hf hi)))
    | false => exact absurd ((noInterrupt_iff s).mpr ⟨hf, hi⟩) hint

end Sys2Proof.Machine

/-! The cycles of every instruction and of an interrupt entry (O60). -/

namespace Sys2Proof.Machine

/-! ## Operands as the table of charges spells them -/

/-- The scaled offset of the Thumb forms as a product (R450). -/
theorem scaled_eq_mul {n : Nat} (imm : BitVec n) (sh : Nat) : scaled imm sh = BitVec.ofNat 32 (2 ^ sh * imm.toNat) := by
  apply BitVec.eq_of_toNat_eq
  simp [scaled, Nat.shiftLeft_eq, Nat.mul_comm]

/-- The list of PUSH (R473). -/
theorem stackList_push (r : Bool) (list : BitVec 8) :
    stackList r 14 list = (if r then 0x4000#16 else 0) ||| list.zeroExtend 16 := by
  cases r <;> simp [stackList, BitVec.or_comm]

/-- The list of POP (R474). -/
theorem stackList_pop (r : Bool) (list : BitVec 8) :
    stackList r 15 list = (if r then 0x8000#16 else 0) ||| list.zeroExtend 16 := by
  cases r <;> simp [stackList, BitVec.or_comm]

/-! ## Families -/

section Families
variable {s t : State}

/-- What an instruction whose condition holds charged, its body charged. -/
theorem conditional_charged {c : Charges} {cond : Cond} {body : Result} (h : conditional cond s body = .next t)
    (hc : s.condPasses cond = true) (hb : body = .next t → Charged c s t) : Charged c s t :=
  hb ((conditional_pass hc).symm.trans h)

/-- R731: a form with a shift by a register (R237). -/
theorem dataProcShreg_charged {op : AluOp} {sf : Bool} {rn rd rs : Reg} {ty : ShiftType} {rm : Reg}
    (h : dataProcShreg op sf rn rd rs ty rm s = .next t) : Charged (codeCharges (!isTest op && rd = 15) 1 s) s t :=
  dataProcess_charged (checked_next.mp h).2

/-- R742: a low register is never R15. -/
theorem thumbAlu_charged {op : AluOp} {rd : LoReg} {a : Word} {o : Shifted} {x : Word}
    (h : dataProcess op true (lo rd) a o x s = .next t) : Charged (codeCharges false x s) s t := by
  simpa [lo_ne_pc] using dataProcess_charged h

/-- R734: a low register is never R15. -/
theorem loadFrom_lo_charged {k : LoadKind} {rd : LoReg} {a : Word} (h : loadFrom k (lo rd) a none s = .next t) :
    Charged (loadAtCharges k a false s) s t := by
  simpa [lo_ne_pc, branchesBase] using loadFrom_charged h

/-- R733 for a long form. -/
theorem multiplyLong_charged_swap {bad : Bool} {sf : Bool} {rdHi rdLo : Reg} {res : BitVec 64} {m : Word}
    (h : s.checked bad .mulRegisters (multiplyLong sf rdHi rdLo res m s) = .next t) :
    Charged (codeCharges (rdHi = 15 || rdLo = 15) m s) s t := by
  rw [Bool.or_comm]
  exact multiplyLong_charged (checked_next.mp h).2

/-- R739: a link before a branch charges nothing and moves no pc. -/
theorem branchTo_link_charged {v link : Word} (h : branchTo v (s.writeReg 14 link) = .next t) :
    Charged (codeCharges true 0 s) s t := by
  have hpc : (s.writeReg 14 link).pc = s.pc := by simp [State.pc_writeReg]
  have hw : (s.writeReg 14 link).codeWidth = s.codeWidth := by
    rw [State.codeWidth, State.thumb, State.writeReg_cpsr]
    rfl
  obtain rfl := Host.Outcome.next.inj h
  exact Charged.finish (by simp [State.chargeCode, hpc, hw, fetch_cost])

end Families

/-! ## Every instruction -/

/-- Each instruction that goes on under a condition that holds charges what its row of the table says. -/
theorem exec_charged {i : Instr} {s t : State} (h : exec i s = .next t) (hc : s.condPasses (condOf i) = true) :
    Charged (charges i s) s t := by
  cases i
  case andImm | eorImm | subImm | rsbImm | addImm | adcImm | sbcImm | rscImm | tstImm | teqImm | cmpImm | cmnImm | orrImm |
      movImm | bicImm | mvnImm | andShimm | eorShimm | subShimm | rsbShimm | addShimm | adcShimm | sbcShimm | rscShimm |
      tstShimm | teqShimm | cmpShimm | cmnShimm | orrShimm | movShimm | bicShimm | mvnShimm =>
    exact conditional_charged h hc dataProcess_charged
  case andShreg | eorShreg | subShreg | rsbShreg | addShreg | adcShreg | sbcShreg | rscShreg | tstShreg | teqShreg |
      cmpShreg | cmnShreg | orrShreg | movShreg | bicShreg | mvnShreg => exact conditional_charged h hc dataProcShreg_charged
  case mrs => exact conditional_charged h hc moveFromPsr_charged
  case msrReg | msrImm => exact conditional_charged h hc moveToPsr_charged
  case mul | mla =>
    rw [charges, ← multiplierCycles_steps]
    exact conditional_charged h hc fun h => multiply_charged (checked_next.mp h).2
  case umull | umlal =>
    rw [charges, ← multiplierCyclesUnsigned_steps]
    exact conditional_charged h hc multiplyLong_charged_swap
  case smull | smlal =>
    rw [charges, ← multiplierCycles_steps]
    exact conditional_charged h hc multiplyLong_charged_swap
  case swp => exact conditional_charged h hc fun h => swap_charged (sk := .word) h rfl
  case swpb => exact conditional_charged h hc fun h => swap_charged (sk := .byte) h rfl
  case bx => exact conditional_charged h hc branchExchange_charged
  case ldrImm | ldrtImm => exact conditional_charged h hc loadSingle_charged
  case ldrReg | ldrtReg | ldrbImm | ldrbtImm | ldrhImm | ldrsbImm | ldrshImm =>
    exact conditional_charged h hc fun h => loadSingle_charged (checked_next.mp h).2
  case ldrbReg | ldrbtReg | ldrhReg | ldrsbReg | ldrshReg =>
    exact conditional_charged h hc fun h => loadSingle_charged (checked_next.mp (checked_next.mp h).2).2
  case strImm | strtImm => exact conditional_charged h hc storeSingle_charged
  case strReg | strtReg | strbImm | strbtImm | strhImm =>
    exact conditional_charged h hc fun h => storeSingle_charged (checked_next.mp h).2
  case strbReg | strbtReg | strhReg =>
    exact conditional_charged h hc fun h => storeSingle_charged (checked_next.mp (checked_next.mp h).2).2
  case ldmia | ldmib | ldmda | ldmdb => exact conditional_charged h hc blockLoad_charged
  case stmia | stmib | stmda | stmdb => exact conditional_charged h hc blockStore_charged
  case b | tBcond => exact conditional_charged h hc branchTo_charged
  case bl => exact conditional_charged h hc branchTo_link_charged
  case swi => exact conditional_charged h hc softwareInterrupt_charged
  case tLslImm | tLsrImm | tAsrImm | tAddReg | tSubReg | tAddImm3 | tSubImm3 | tMovImm | tCmpImm | tAddImm8 | tSubImm8 |
      tAnd | tEor | tLslReg | tLsrReg | tAsrReg | tAdc | tSbc | tRor | tTst | tNeg | tCmpReg | tCmn | tOrr | tBic | tMvn =>
    simp only [exec_tLslImm, exec_tLsrImm, exec_tAsrImm, exec_tAddReg, exec_tSubReg, exec_tAddImm3, exec_tSubImm3, exec_tMovImm,
      exec_tCmpImm, exec_tAddImm8, exec_tSubImm8, exec_tAnd, exec_tEor, exec_tLslReg, exec_tLsrReg, exec_tAsrReg, exec_tAdc,
      exec_tSbc, exec_tRor, exec_tTst, exec_tNeg, exec_tCmpReg, exec_tCmn, exec_tOrr, exec_tBic, exec_tMvn] at h
    exact thumbAlu_charged h
  case tAddHi | tCmpHi | tMovHi => exact dataProcess_charged (checked_next.mp h).2
  case tMul => simpa [charges, lo_ne_pc, multiplierCycles_steps] using multiply_charged (checked_next.mp h).2
  case tBx => exact branchExchange_charged (checked_next.mp h).2
  case tLdrReg | tLdrbReg | tLdsb | tLdrhReg | tLdsh => exact loadFrom_lo_charged h
  case tLdrPc | tLdrImm | tLdrbImm | tLdrhImm | tLdrSp =>
    simpa [charges, thumbPcBase, alignWord, scaled_eq_mul] using loadFrom_lo_charged h
  case tStrReg | tStrbReg | tStrhReg => exact storeTo_charged h
  case tStrImm | tStrbImm | tStrhImm | tStrSp => simpa [charges, branchesBase, scaled_eq_mul] using storeTo_charged h
  case tAddPc | tAddSp | tAddSpImm | tSubSpImm | tBlHi => exact writeAddress_charged h
  case tPush =>
    rw [charges, ← stackList_push]
    exact blockStore_charged h
  case tPop =>
    rw [charges, ← stackList_pop]
    exact blockLoad_charged h
  case tStmia => exact blockStore_charged h
  case tLdmia => exact blockLoad_charged h
  case tSwi => exact softwareInterrupt_charged h
  case tB => exact branchTo_charged h
  case tBlLo => exact branchTo_link_charged h

/-! ## An interrupt entry -/

/-- An entry outputs the fetch it did not execute and the refill at the vector, drained (R745). -/
theorem interruptEntry_cyclesOut (s : State) (m : Mode) (vector lr : Word) (setF : Bool) :
    let t := (((s.afterInput.chargeCode .S).takeException m vector lr setF).finish true).drain
    t.cyclesOut = s.cycles + fetchCost s s.pc .S + refillCost t := by
  refine Charged.finish (s := s) (c := fetchCost s s.pc .S) (b := true) ?_
  rw [takeException_cycles]
  rfl

/-- Settles O60: the table of charges, and the two entries of a step. -/
theorem instructionTiming : Obligations.InstructionTiming := by
  refine ⟨fun i s t h hc => exec_charged h hc, fun s t hint h => ?_⟩
  rcases step_of_interrupt hint h with rfl | rfl
  · exact interruptEntry_cyclesOut s .fiq _ _ _
  · exact interruptEntry_cyclesOut s .irq _ _ _

end Sys2Proof.Machine

/-! Data processing: what the common rule leaves (O16 to O18), and the return from an exception (O19). -/

namespace Sys2Proof.Machine

/-! ## From a body to its instruction -/

/-- An instruction under a condition that holds completes as its body does. -/
theorem Completes.conditional {i : Instr} {cond : Cond} {s : State} {body : Result} {post : State → Prop}
    (hcond : s.condPasses cond = true) (hexec : exec i s = Machine.conditional cond s body)
    (hbody : ∃ t, body = .next t ∧ post t) : Completes i s post := by
  rwa [Completes, hexec, conditional_pass hcond]

/-- A write of Rd on a state with the pc and the CPSR of the first one, and the end of the instruction (R66). -/
theorem writeReg_finish_done {s u : State} (hpc : u.pc = s.pc) (hcpsr : u.cpsr = s.cpsr) (rd : Reg) (v : Word) :
    WroteReg s ((u.writeReg rd v).finish (rd = 15)) rd v ∧ SameFlags s ((u.writeReg rd v).finish (rd = 15)) := by
  have hcpsr' : (u.writeReg rd v).cpsr = s.cpsr := (State.writeReg_cpsr u rd v).trans hcpsr
  refine ⟨wroteReg_finish (fun hrd => ?reg) ?pc (State.ilen_congr hcpsr'), flags_congr ((State.finish_cpsr _ _).trans hcpsr')⟩
  case reg => exact (State.readReg_writeReg u rd rd v hrd).trans (if_pos rfl)
  case pc => rw [pc_writeReg_eq_ite, hpc, State.alignPc_congr hcpsr]

/-- The common rule writes Rd or tests, then sets the flags by S, in a form that returns from no exception (R261 to R267). -/
theorem dataProcess_done {op : AluOp} {sf : Bool} {rd : Reg} (a : Word) (o : Shifted) (x : Word) (s : State)
    (hret : isTest op = false → sf = true → rd ≠ 15) :
    ∃ t, dataProcess op (isTest op || sf) rd a o x s = .next t ∧ DpDone op sf rd a o s t := by
  let u := (s.chargeCode .S).internal x
  let r := alu op a o s.flagC s.flagV
  cases ht : isTest op with
  | true =>
    refine ⟨(u.setAluFlags r).finish false, by simp [dataProcess, ht, u, r], ?_, ?_⟩
    · simp only [ht, if_true]
      exact congrArg (s.pc + ·) (ilen_writeFlags u _ _ _ _)
    · simp only [ht, Bool.or_true, if_true]
      exact flagsAre_writeFlags_finish ..
  | false =>
    cases sf with
    | true =>
      have hrd := hret ht rfl
      refine ⟨((u.writeReg rd r.res).setAluFlags r).finish (rd = 15), by simp [dataProcess, ht, hrd, u, r], ?_, ?_⟩
      · simp only [ht, Bool.false_eq_true, if_false]
        refine wroteReg_finish (fun hrd => (readReg_writeFlags ..).trans ?reg) (pc_writeReg_eq_ite u rd r.res)
          ((ilen_writeFlags ..).trans (State.ilen_congr (State.writeReg_cpsr u rd r.res)))
        case reg => exact (State.readReg_writeReg u rd rd r.res hrd).trans (if_pos rfl)
      · exact flagsAre_writeFlags_finish ..
    | false =>
      have hdone := writeReg_finish_done (s := s) (u := u) rfl rfl rd r.res
      refine ⟨(u.writeReg rd r.res).finish (rd = 15), by simp [dataProcess, ht, u, r], ?_⟩
      simpa [DpDone, ht] using hdone

/-- The rotated immediate with its carry (R238). -/
theorem immOperand_eq (rotate : BitVec 4) (imm : BitVec 8) (c : Bool) :
    immOperand rotate imm c =
      ⟨rotatedImm rotate imm, if rotate = 0 then c else (rotatedImm rotate imm).getLsbD 31⟩ := by
  rw [immOperand, msb_eq_bit31]

/-- Settles O16. -/
theorem dataProcessingImmediate : Obligations.DataProcessingImmediate := by
  intro op cond sf rn rd rotate imm s hcond hret value
  refine .conditional hcond (exec_dpImm ..) ?_
  rw [dataProcImm, immOperand_eq]
  exact dataProcess_done _ _ _ s hret

/-- Settles O17. -/
theorem dataProcessingShift : Obligations.DataProcessingShift := by
  intro op cond sf rn rd amount ty rm s hcond hret
  exact .conditional hcond (exec_dpShimm ..) (dataProcess_done _ _ _ s hret)

/-- Settles O18: an allowed Rs passes the check, and the operands are read with R15 at its own offset. -/
theorem dataProcessingRegisterShift : Obligations.DataProcessingRegisterShift := by
  intro op cond sf rn rd rs ty rm s hcond hret hrs read
  refine .conditional hcond (exec_dpShreg ..) ?_
  rw [dataProcShreg, checked_of_allowed hrs]
  exact dataProcess_done _ _ _ s hret

/-! ## The return from an exception -/

section Return
variable {op : AluOp} (hop : isTest op = false) (a : Word) (o : Shifted) (x : Word) {s : State} {p : Word}
  (hspsr : s.spsr = some p)
include hop hspsr

/-- A return to a legal mode restores the CPSR and branches in the restored set (R265). -/
theorem dataProcess_return {m : Mode} (hm : Mode.ofBits? (psrM p) = some m) :
    ∃ t, dataProcess op true 15 a o x s = .next t ∧ t.cpsr = p ∧
      t.pc = (if psrT p then (alu op a o s.flagC s.flagV).res &&& 0xFFFFFFFE#32
        else (alu op a o s.flagC s.flagV).res &&& 0xFFFFFFFC#32) ∧ t.regs = s.regs := by
  have hp : p &&& psrImplemented = p := implemented_of_reserved (spsr_reserved hspsr)
  let r := alu op a o s.flagC s.flagV
  refine ⟨(((s.chargeCode .S).internal x).returnFromException p r.res).finish true, ?_, ?_, ?_, ?_⟩
  · simp [dataProcess, hop, withReturnPsr_pass hspsr hm, r]
  · simp [hp]
  · simp [State.returnFromException, State.alignPc, State.thumb, r]
  · simp

/-- A return to no legal mode faults (R57). -/
theorem dataProcess_return_invalidMode (hm : Mode.ofBits? (psrM p) = none) :
    dataProcess op true 15 a o x s = .fault (.invalidMode (psrM p)) := by
  simp [dataProcess, hop, State.withReturnPsr, hspsr, hm]

end Return

/-- The result of an operation looks at the value of its operand2 alone (R260). -/
theorem alu_res_carry (op : AluOp) (a v : Word) (k k' c f : Bool) :
    (alu op a ⟨v, k⟩ c f).res = (alu op a ⟨v, k'⟩ c f).res := by
  cases op <;> rfl

/-- Settles O19: each operand form runs the common rule, which returns from the exception. -/
theorem exceptionReturn : Obligations.ExceptionReturn := by
  intro op cond rn s p hcond hop hspsr returns run
  have hret (i : Instr) (a : Word) (o : Shifted) (x res : Word)
      (hexec : exec i s = conditional cond s (dataProcess op true 15 a o x s)) (hres : (alu op a o s.flagC s.flagV).res = res) :
      returns i res := by
    refine ⟨fun hm => ?_, fun hm => ?_⟩
    · obtain ⟨m, hm⟩ := Option.isSome_iff_exists.mp hm
      obtain ⟨t, hnext, hcpsr, hpc, -⟩ := dataProcess_return hop a o x hspsr hm
      exact .conditional hcond hexec ⟨t, hnext, hcpsr, hres ▸ hpc⟩
    · rw [hexec, conditional_pass hcond]
      exact dataProcess_return_invalidMode hop a o x hspsr hm
  refine ⟨fun rotate imm => ?imm, fun amount ty rm => ?shimm, fun rs ty rm hrs => ?shreg⟩
  case imm => exact hret _ _ _ _ _ (by rw [exec_dpImm, Bool.or_true]; rfl) (alu_res_carry ..)
  case shimm => exact hret _ _ _ _ _ (by rw [exec_dpShimm, Bool.or_true]; rfl) rfl
  case shreg =>
    exact hret _ _ (shregOperand s rs ty rm) 1 _ (by rw [exec_dpShreg, Bool.or_true, dataProcShreg, checked_of_allowed hrs]) rfl

end Sys2Proof.Machine

/-! Thumb formats 1 to 5 and the address forms (O37 to O40, O43). -/

namespace Sys2Proof.Machine

/-! ## Formats 1 to 4 -/

/-- A test writes no register (R260). -/
theorem dataProcess_test_readReg {op : AluOp} (hop : isTest op = true) {sf : Bool} {rd : Reg} {a : Word} {o : Shifted} {x : Word}
    {s t : State} (h : dataProcess op sf rd a o x s = .next t) {n : Reg} (hn : n ≠ 15) : t.readReg n = s.readReg n := by
  rw [dataProcess, if_pos hop] at h
  obtain rfl := Host.Outcome.next.inj h
  exact (readReg_finish _ _ hn).trans (readReg_writeFlags ..)

/-- What an operation of formats 1 to 4 leaves: the four flags as the ALU gives them, the pc past it, and the result in Rd unless
it is a test. -/
def ThumbAluLeft (op : AluOp) (rd : LoReg) (a : Word) (o : Shifted) (s t : State) : Prop :=
  let r := alu op a o s.flagC s.flagV
  FlagsAre t r.res.msb (r.res == 0) r.carry r.overflow ∧ t.pc = s.pc + s.ilen ∧
    t.readReg (lo rd) = if isTest op then s.readReg (lo rd) else r.res

section ThumbAlu
variable {i : Instr} {op : AluOp} {rd : LoReg} {a : Word} {o : Shifted} {x : Word} {s : State}
  (hexec : exec i s = dataProcess op true (lo rd) a o x s)
include hexec

theorem thumbAlu_completes : Completes i s (DpDone op true (lo rd) a o s) := by
  obtain ⟨t, hnext, hdone⟩ := dataProcess_done (op := op) (sf := true) a o x s fun _ _ => lo_ne_pc rd
  rw [Bool.or_true] at hnext
  exact ⟨t, hexec.trans hnext, hdone⟩

theorem thumbAlu_leaves : Completes i s (ThumbAluLeft op rd a o s) := by
  obtain ⟨t, hnext, hwrite, hflags⟩ := thumbAlu_completes hexec
  refine ⟨t, hnext, hflags, ?_⟩
  cases hop : isTest op with
  | true =>
    rw [if_pos hop] at hwrite
    exact ⟨hwrite, dataProcess_test_readReg hop (hexec.symm.trans hnext) (lo_ne_pc rd)⟩
  | false =>
    rw [if_neg (by simp [hop]), WroteReg, if_neg (lo_ne_pc rd)] at hwrite
    exact hwrite.symm

end ThumbAlu

/-- Settles O37. -/
theorem thumbShifts : Obligations.ThumbShifts := by
  intro imm rs rd s shifted amount
  exact ⟨thumbAlu_completes (exec_tLslImm ..), thumbAlu_completes (exec_tLsrImm ..), thumbAlu_completes (exec_tAsrImm ..),
    thumbAlu_completes (exec_tLslReg ..), thumbAlu_completes (exec_tLsrReg ..), thumbAlu_completes (exec_tAsrReg ..),
    thumbAlu_completes (exec_tRor ..)⟩

/-- Settles O38: each operation leaves what the ALU gives, a sum of the two operands or of one and a complement. -/
theorem thumbArithmetic : Obligations.ThumbArithmetic := by
  intro rn rs rd imm3 imm8 s r sum
  have left {i : Instr} {op : AluOp} {a : Word} {o : Shifted} {x y z : Word} {c written : Bool}
      (hexec : exec i s = dataProcess op true (lo rd) a o z s) (hop : isTest op = !written)
      (halu : alu op a o s.flagC s.flagV = addWithCarry x y c) : Completes i s (sum x y c written) := by
    obtain ⟨t, hnext, hflags, hpc, hreg⟩ := thumbAlu_leaves hexec
    rw [halu] at hflags
    rw [halu, hop] at hreg
    exact ⟨t, hnext, hflags, hpc, by cases written <;> exact hreg⟩
  exact ⟨left (exec_tAddReg ..) rfl rfl, left (exec_tSubReg ..) rfl rfl, left (exec_tAddImm3 ..) rfl rfl,
    left (exec_tSubImm3 ..) rfl rfl, left (exec_tCmpImm ..) rfl rfl, left (exec_tAddImm8 ..) rfl rfl,
    left (exec_tSubImm8 ..) rfl rfl, left (exec_tAdc ..) rfl rfl, left (exec_tSbc ..) rfl rfl,
    left (exec_tNeg ..) rfl rfl, left (exec_tCmpReg ..) rfl rfl, left (exec_tCmn ..) rfl rfl⟩

/-- Settles O39: each operation leaves what the ALU gives, where an operand that no shift made keeps C; MUL is the common
multiply. -/
theorem thumbLogical : Obligations.ThumbLogical := by
  intro rs rd imm s r leaves
  have left {i : Instr} {op : AluOp} {a v res : Word} {written : Bool}
      (hexec : exec i s = dataProcess op true (lo rd) a (plain v s) 0 s) (hop : isTest op = !written)
      (halu : alu op a (plain v s) s.flagC s.flagV = ⟨res, s.flagC, s.flagV⟩) : Completes i s (leaves res written) := by
    obtain ⟨t, hnext, hflags, hpc, hreg⟩ := thumbAlu_leaves hexec
    rw [halu, msb_eq_bit31] at hflags
    rw [halu, hop] at hreg
    exact ⟨t, hnext, hflags, hpc, by cases written <;> exact hreg⟩
  refine ⟨left (exec_tMovImm ..) rfl rfl, left (exec_tAnd ..) rfl rfl, left (exec_tEor ..) rfl rfl, left (exec_tTst ..) rfl rfl,
    left (exec_tOrr ..) rfl rfl, left (exec_tBic ..) rfl rfl, left (exec_tMvn ..) rfl rfl, fun hregs => ?mul⟩
  case mul =>
    obtain ⟨t, hnext, hwrote, hflags⟩ := multiply_done true (lo rd) (r rs * r rd) (multiplierCycles (r rd)) s
    rw [WroteReg, if_neg (lo_ne_pc rd)] at hwrote
    rw [msb_eq_bit31] at hflags
    rw [ofNat_toNat_mul]
    exact ⟨t, (checked_of_allowed hregs).trans hnext, hflags, hwrote.symm⟩

/-! ## Format 5 -/

/-- Settles O40: allowed registers pass the check, and the common rule runs with S set for CMP alone. -/
theorem thumbHighRegisters : Obligations.ThumbHighRegisters := by
  intro h1 h2 rs rd s hregs d y r
  have run (i : Instr) (op : AluOp) (sf : Bool) (hexec : exec i s = s.checked (!h1 && !h2) .thumbHiRegisters
      (dataProcess op (isTest op || sf) d (s.readReg d) ⟨y, s.flagC⟩ 0 s))
      (hret : isTest op = false → sf = true → d ≠ 15) : Completes i s (DpDone op sf d (s.readReg d) ⟨y, s.flagC⟩ s) := by
    rw [Completes, hexec, checked_of_allowed hregs]
    exact dataProcess_done _ _ _ s hret
  refine ⟨?add, run (.tMovHi h1 h2 rs rd) .mov false rfl (by simp), ?cmp⟩
  case add =>
    have hadd := run (.tAddHi h1 h2 rs rd) .add false rfl (by simp)
    have hres : (addWithCarry (s.readReg d) y false).res = s.readReg d + y := by simp [addWithCarry_res]
    rw [← hres]
    exact hadd
  case cmp =>
    obtain ⟨t, hnext, hpc, hflags⟩ := run (.tCmpHi h1 h2 rs rd) .cmp true rfl (by simp [isTest])
    exact ⟨t, hnext, hflags, hpc⟩

/-! ## The address forms -/

/-- An address computation writes its register and no flag (R469 to R472). -/
theorem writeAddress_done {rd : Reg} (hrd : rd ≠ 15) (v : Word) (s : State) :
    ∃ t, writeAddress rd v s = .next t ∧ t.readReg rd = v ∧ t.pc = s.pc + s.ilen ∧ t.cpsr = s.cpsr := by
  have hdone := (writeReg_finish_done (s := s) (u := s.chargeCode .S) rfl rfl rd v).1
  rw [decide_eq_false hrd, WroteReg, if_neg hrd] at hdone
  exact ⟨_, rfl, hdone.1, hdone.2, by simp⟩

/-- Settles O43. -/
theorem thumbAddresses : Obligations.ThumbAddresses := by
  intro rd imm8 imm7 s wrote off8 off7
  have h8 : scaled imm8 2 = off8 := scaled_eq_mul imm8 2
  have h7 : scaled imm7 2 = off7 := scaled_eq_mul imm7 2
  rw [← h8, ← h7]
  exact ⟨writeAddress_done (lo_ne_pc rd) _ s, writeAddress_done (lo_ne_pc rd) _ s, writeAddress_done (by decide) _ s,
    writeAddress_done (by decide) _ s⟩

end Sys2Proof.Machine

/-! The ALU as arithmetic (O13), and the conditions after a comparison (O11). -/

namespace Sys2Proof.Machine

/-! ## The addition, all at once -/

section Addition
variable (x y : Word) (cin : Bool)

theorem toInt_not_eq : (~~~y).toInt = -1 - y.toInt := by
  have hy := y.isLt
  simp only [BitVec.toInt_eq_toNat_cond, BitVec.toNat_not]
  omega

/-- A sum with its carry, and overflow as the signed sum out of range (R262). -/
theorem addWithCarry_eq :
    addWithCarry x y cin = ⟨x + y + BitVec.ofNat 32 cin.toNat, decide (2 ^ 32 ≤ x.toNat + y.toNat + cin.toNat),
      decide (x.toInt + y.toInt + cin.toNat ≠ (x + y + BitVec.ofNat 32 cin.toNat).toInt)⟩ := by
  have hv : (addWithCarry x y cin).overflow =
      decide (x.toInt + y.toInt + cin.toNat ≠ (x + y + BitVec.ofNat 32 cin.toNat).toInt) := by
    rw [Bool.eq_iff_iff, addWithCarry_overflow_iff_toInt, addWithCarry_res, decide_eq_true_iff]
  rw [← hv, ← addWithCarry_res, ← addWithCarry_carry]

/-- The same of a difference: no borrow, and the signed difference out of range (R262). -/
theorem addWithCarry_not_eq :
    addWithCarry x (~~~y) cin = ⟨x - y - BitVec.ofNat 32 (1 - cin.toNat), decide (y.toNat + (1 - cin.toNat) ≤ x.toNat),
      decide (x.toInt - y.toInt - (1 - cin.toNat : Nat) ≠ (x - y - BitVec.ofNat 32 (1 - cin.toNat)).toInt)⟩ := by
  have hsum : x.toInt + (~~~y).toInt + cin.toNat = x.toInt - y.toInt - (1 - cin.toNat : Nat) := by
    have hc := cin.toNat_le
    rw [toInt_not_eq]
    omega
  have hv : (addWithCarry x (~~~y) cin).overflow =
      decide (x.toInt - y.toInt - (1 - cin.toNat : Nat) ≠ (x - y - BitVec.ofNat 32 (1 - cin.toNat)).toInt) := by
    rw [Bool.eq_iff_iff, addWithCarry_overflow_iff_toInt, addWithCarry_not_res, decide_eq_true_iff, hsum]
  rw [← hv, ← addWithCarry_not_res, ← addWithCarry_not_carry]

/-- A sum without a carry in. -/
theorem addWithCarry_false_eq :
    addWithCarry x y false = ⟨x + y, decide (2 ^ 32 ≤ x.toNat + y.toNat), decide (x.toInt + y.toInt ≠ (x + y).toInt)⟩ := by
  simpa using addWithCarry_eq x y false

/-- A difference without a borrow in. -/
theorem addWithCarry_not_true_eq :
    addWithCarry x (~~~y) true = ⟨x - y, decide (y.toNat ≤ x.toNat), decide (x.toInt - y.toInt ≠ (x - y).toInt)⟩ := by
  simpa using addWithCarry_not_eq x y true

end Addition

/-- Settles O13: a logical operation by its definition, an arithmetic one as a sum or a difference. -/
theorem aluResults : Obligations.AluResults := by
  intro a b shc c v run k
  refine ⟨rfl, rfl, rfl, rfl, rfl, rfl, rfl, rfl, ?add, addWithCarry_eq a b c, ?sub, addWithCarry_not_eq a b c,
    addWithCarry_not_true_eq b a, addWithCarry_not_eq b a c⟩
  case add => rintro op (rfl | rfl) <;> exact addWithCarry_false_eq a b
  case sub => rintro op (rfl | rfl) <;> exact addWithCarry_not_true_eq a b

/-! ## After a comparison -/

/-- N differs from V exactly when the signed difference is negative (R264). -/
theorem msb_sub_bne_overflow (a b : Word) :
    ((a - b).msb != decide (a.toInt - b.toInt ≠ (a - b).toInt)) = decide (a.toInt < b.toInt) := by
  have ha := a.isLt
  have hb := b.isLt
  have hd : (a - b).toNat = (2 ^ 32 - b.toNat + a.toNat) % 2 ^ 32 := BitVec.toNat_sub a b
  rw [Bool.eq_iff_iff, bne_iff_ne, ne_eq, Bool.eq_iff_iff]
  simp only [BitVec.msb_eq_decide, BitVec.toInt_eq_toNat_cond, decide_eq_true_eq, ne_eq]
  omega

theorem sub_beq_zero (a b : Word) : (a - b == 0) = decide (a = b) := by
  rw [Bool.eq_iff_iff, beq_iff_eq, sub_eq_zero, decide_eq_true_eq]

/-- Settles O11: Z, C, and N against V are equality, no borrow, and the signed order; the other conditions combine them. -/
theorem conditionsAfterCompare : Obligations.ConditionsAfterCompare := by
  intro a b r test
  have hr : r = ⟨a - b, decide (b.toNat ≤ a.toNat), decide (a.toInt - b.toInt ≠ (a - b).toInt)⟩ := addWithCarry_not_true_eq a b
  have hz : (r.res == 0) = decide (a = b) := by rw [hr]; exact sub_beq_zero a b
  have hc : r.carry = decide (b.toNat ≤ a.toNat) := by rw [hr]
  have hn : r.res.msb = (a - b).msb := by rw [hr]
  have hv : r.overflow = decide (a.toInt - b.toInt ≠ (a - b).toInt) := by rw [hr]
  have hlt : (r.res.msb != r.overflow) = decide (a.toInt < b.toInt) := by rw [hr]; exact msb_sub_bne_overflow a b
  have hge : (r.res.msb == r.overflow) = decide (b.toInt ≤ a.toInt) := by
    rw [← Bool.not_not (_ == _), ← bne, hlt, ← decide_not, decide_eq_decide, Int.not_lt]
  have hnat : a = b ↔ a.toNat = b.toNat := BitVec.toNat_inj.symm
  have hint : a = b ↔ a.toInt = b.toInt := BitVec.toInt_inj.symm
  refine ⟨hz, ?ne, hc, ?cc, ?hi, ?ls, hge, hlt, ?gt, ?le, hn, congrArg Bool.not hn, hv, ?vc⟩
  case ne => exact (congrArg Bool.not hz).trans (decide_not ..).symm
  case cc => exact (congrArg Bool.not hc).trans (by rw [← decide_not, decide_eq_decide, Nat.not_le])
  case hi =>
    show (r.carry && !(r.res == 0)) = _
    rw [hc, hz, ← decide_not, ← Bool.decide_and, decide_eq_decide, hnat]
    omega
  case ls =>
    show (!r.carry || (r.res == 0)) = _
    rw [hc, hz, ← decide_not, ← Bool.decide_or, decide_eq_decide, hnat]
    omega
  case gt =>
    show (!(r.res == 0) && (r.res.msb == r.overflow)) = _
    rw [hge, hz, ← decide_not, ← Bool.decide_and, decide_eq_decide, hint]
    omega
  case le =>
    show ((r.res == 0) || (r.res.msb != r.overflow)) = _
    rw [hlt, hz, ← Bool.decide_or, decide_eq_decide, hint]
    omega
  case vc => exact (congrArg Bool.not hv).trans (by rw [← decide_not, decide_eq_decide, not_not])

end Sys2Proof.Machine

/-! Words and halfwords as their bytes: what is stored is read back (O50), and the fetch reads the instruction at the pc (O7,
O8). -/

namespace Sys2Proof.Machine

/-! ## Values from their bytes -/

theorem half_of_bytes (h : Half) : (h.extractLsb' 8 8 ++ h.extractLsb' 0 8 : Half) = h :=
  BitVec.extractLsb'_append_extractLsb' (w := 8) (len := 8)

theorem word_of_bytes (w : Word) :
    (w.extractLsb' 24 8 ++ w.extractLsb' 16 8 ++ w.extractLsb' 8 8 ++ w.extractLsb' 0 8 : Word) = w := by
  have h2 : (w.extractLsb' 24 8 ++ w.extractLsb' 16 8 : Half) = w.extractLsb' 16 16 :=
    BitVec.extractLsb'_append_extractLsb'_eq_extractLsb' rfl
  have h3 : (w.extractLsb' 16 16 ++ w.extractLsb' 8 8 : BitVec 24) = w.extractLsb' 8 24 :=
    BitVec.extractLsb'_append_extractLsb'_eq_extractLsb' rfl
  exact (congrArg (· ++ w.extractLsb' 0 8) ((congrArg (· ++ w.extractLsb' 8 8) h2).trans h3)).trans
    (BitVec.extractLsb'_append_extractLsb' (w := 24) (len := 8))

/-- A halfword whose bytes stand at an address (R106). -/
theorem le16_of_bytes {m : Memory} {a : Word} {h : Half}
    (hb : ∀ k : Nat, k < 2 → m.byte (a + BitVec.ofNat 32 k) = h.extractLsb' (8 * k) 8) : m.le16 a = h := by
  have h0 := hb 0 (by decide)
  have h1 := hb 1 (by decide)
  rw [BitVec.add_zero] at h0
  rw [Memory.le16, h0]
  exact (congrArg (· ++ h.extractLsb' 0 8) h1).trans (half_of_bytes h)

/-- A word whose bytes stand at an address (R106). -/
theorem le32_of_bytes {m : Memory} {a w : Word}
    (hb : ∀ k : Nat, k < 4 → m.byte (a + BitVec.ofNat 32 k) = w.extractLsb' (8 * k) 8) : m.le32 a = w := by
  have h0 := hb 0 (by decide)
  have h1 := hb 1 (by decide)
  have h2 := hb 2 (by decide)
  have h3 := hb 3 (by decide)
  rw [BitVec.add_zero] at h0
  calc m.le32 a
    _ = w.extractLsb' 24 8 ++ w.extractLsb' 16 8 ++ w.extractLsb' 8 8 ++ w.extractLsb' 0 8 := by
      rw [Memory.le32, h0]
      exact congrArg₂ _ (congrArg₂ _ (congrArg₂ _ h3 h2) h1) rfl
    _ = w := word_of_bytes w

/-! ## What is stored is read back -/

theorem offset_toNat (a : Word) {k : Nat} (hk : k < 4) : (a + BitVec.ofNat 32 k - a).toNat = k := by
  bv_omega

theorem le32_memWrite32 {s : State} {a : Word} (v : Word)
    (hm : ∀ k : Nat, k < 4 → s.mem.mapped (alignWord a + BitVec.ofNat 32 k) = true) :
    (s.memWrite32 a v).mem.le32 (alignWord a) = v := by
  refine le32_of_bytes fun k hk => ?_
  rw [State.byte_memWrite32, offset_toNat _ hk, if_pos ⟨hk, hm k hk⟩]

theorem le16_memWrite16 {s : State} {a : Word} (h : Half)
    (hm : ∀ k : Nat, k < 2 → s.mem.mapped (alignHalf a + BitVec.ofNat 32 k) = true) :
    (s.memWrite16 a h).mem.le16 (alignHalf a) = h := by
  refine le16_of_bytes fun k hk => ?_
  rw [State.byte_memWrite16, offset_toNat _ (Nat.lt_trans hk (by decide)), if_pos ⟨hk, hm k hk⟩]

/-- Settles O50: each width reads back the bytes it wrote; a byte that no region maps reads 0 and takes no write. -/
theorem memoryReadsBack : Obligations.MemoryReadsBack := by
  intro s a v h b word half
  refine ⟨fun hm => ?word, fun hm => ?half, fun hm => ?byte, fun hm => ⟨if_neg (by simp [hm]), if_neg (by simp [hm])⟩⟩
  case word => exact congrArg (fun x : Word => x.rotateRight _) (le32_memWrite32 v hm)
  case half => exact congrArg (fun x : Half => x.rotateRight _) (le16_memWrite16 h hm)
  case byte => exact (State.byte_memWrite8 s a a b).trans (if_pos ⟨rfl, hm⟩)

/-! ## The fetch -/

/-- A halfword is aligned when its lowest bit is 0. -/
theorem alignHalf_eq_self_iff (a : Word) : alignHalf a = a ↔ a.toNat % 2 = 0 := by
  have hmod : a.toNat % 2 = (a &&& 1#32).toNat := by
    rw [BitVec.toNat_and]
    exact (Nat.and_two_pow_sub_one_eq_mod _ 1).symm
  have hsplit : alignHalf a ||| a &&& 1#32 = a := by
    rw [alignHalf, ← BitVec.and_or_distrib_left]
    exact BitVec.and_allOnes
  have hlow : alignHalf a &&& 1#32 = 0 := by
    rw [alignHalf, BitVec.and_assoc]
    exact BitVec.and_zero
  rw [hmod]
  constructor
  · intro h
    rw [← h, hlow]
    rfl
  · intro h
    rw [show a &&& 1#32 = 0 from BitVec.eq_of_toNat_eq h] at hsplit
    exact BitVec.or_zero.symm.trans hsplit

theorem memRead32_of_aligned (s : State) {a : Word} (h : alignWord a = a) : s.memRead32 a = s.mem.le32 a := by
  rw [State.memRead32, h, (alignWord_eq_self_iff a).mp h]
  simp [BitVec.rotateRight_def]

theorem memRead16_of_aligned (s : State) {a : Word} (h : alignHalf a = a) : s.memRead16 a = s.mem.le16 a := by
  rw [State.memRead16, h, (alignHalf_eq_self_iff a).mp h]
  simp [BitVec.rotateRight_def]

/-- The fetch at an aligned pc reads the instruction whose bytes stand there (R118). -/
theorem fetch_of_bytes {s : State} {c : Code} (hpc : s.alignPc s.pc = s.pc) (hisa : c.isa = if s.thumb then .thumb else .arm)
    (hb : ∀ (k : Nat) (h : k < c.bytes.length), s.mem.byte (s.pc + BitVec.ofNat 32 k) = c.bytes[k]) : s.fetch = c := by
  rw [State.fetch]
  cases c with
  | arm w =>
    have ht : s.thumb = false := by cases ht : s.thumb <;> simp [ht, Code.isa] at hisa ⊢
    have hbytes : ∀ (k : Nat) (h : k < 4), (Code.arm w).bytes[k] = w.extractLsb' (8 * k) 8 := by
      intro k hk
      interval_cases k <;> rfl
    rw [ht, if_neg Bool.false_ne_true, memRead32_of_aligned s (alignPc_of_arm ht _ ▸ hpc)]
    exact congrArg _ (le32_of_bytes fun k hk => (hb k hk).trans (hbytes k hk))
  | thumb h =>
    have ht : s.thumb = true := by cases ht : s.thumb <;> simp [ht, Code.isa] at hisa ⊢
    rw [State.alignPc, if_pos ht] at hpc
    have hbytes : ∀ (k : Nat) (hk : k < 2), (Code.thumb h).bytes[k] = h.extractLsb' (8 * k) 8 := by
      intro k hk
      interval_cases k <;> rfl
    rw [ht, if_pos rfl, memRead16_of_aligned s hpc]
    exact congrArg _ (le16_of_bytes fun k hk => (hb k hk).trans (hbytes k hk))

theorem decodeBytes_bytes (c : Code) : decodeBytes c.isa c.bytes = some (decode c, []) := by
  cases c with
  | arm w => exact congrArg (fun w => some (decodeArm w, [])) (word_of_bytes w)
  | thumb h => exact congrArg (fun h => some (decodeThumb h, [])) (half_of_bytes h)

/-- A step with no interrupt to take decodes the instruction at the pc. -/
theorem step_of_codeAtPc {s : State} {c : Code} {d : DecodeResult} (hno : NoInterrupt s) (hpc : s.alignPc s.pc = s.pc)
    (hcode : CodeAtPc s c) (hdecode : decodeBytes c.isa c.bytes = some (d, [])) :
    decode s.afterInput.fetch = d ∧ step s = drained s.afterInput.runInstr := by
  have hfetch : s.afterInput.fetch = c := fetch_of_bytes (s := s.afterInput) hpc hcode.1 hcode.2
  rw [decodeBytes_bytes] at hdecode
  exact ⟨by rw [hfetch]; exact congrArg Prod.fst (Option.some.inj hdecode), step_of_noInterrupt hno⟩

/-- Settles O7. -/
theorem stepRunsDecoded : Obligations.StepRunsDecoded := by
  intro s c i hno hpc hcode hdecode
  obtain ⟨hd, hstep⟩ := step_of_codeAtPc hno hpc hcode hdecode
  rw [hstep, State.runInstr, hd]
  dsimp only
  cases exec i s.afterInput <;> rfl

/-- Settles O8. -/
theorem stepStopsUndefined : Obligations.StepStopsUndefined := by
  intro s c raw index isa hno hpc hcode hdecode
  obtain ⟨hd, hstep⟩ := step_of_codeAtPc hno hpc hcode hdecode
  rw [hstep, State.runInstr, hd]
  rfl

end Sys2Proof.Machine

/-! Interrupt entries (O9), the return from an exception right after it was taken (O57), and reset (O53, O54). -/

namespace Sys2Proof.Machine

/-! ## The entry of an interrupt -/

/-- What the entry of a step leaves, with its charges and the collaborators' writes (R610, R614). -/
theorem interruptEntry_entered (s : State) {m : Mode} (vector lr : Word) (setF : Bool) (hm : (s.spsrOf m).isSome = true) :
    EnteredException s (((s.afterInput.chargeCode .S).takeException m vector lr setF).finish true).drain m vector lr setF := by
  have h := (takeException_entered (s.afterInput.chargeCode .S) m vector lr setF hm).congr_timing
    (s' := s.afterInput) (t' := (((s.afterInput.chargeCode .S).takeException m vector lr setF).finish true).drain) rfl rfl
  exact ⟨h.pc, h.mode, h.link, h.saved, h.flags, h.irqMasked, h.fiqMasked, h.arm, h.registers, h.spsrs, h.waitcnt⟩

theorem interruptEntry_mem (s : State) (m : Mode) (vector lr : Word) (setF : Bool) :
    (((s.afterInput.chargeCode .S).takeException m vector lr setF).finish true).drain.mem =
      collaboratorWrites s.nextInput.writes s.mem := by
  simp [State.takeException, State.afterInput]

/-- Settles O9. -/
theorem interruptEntry : Obligations.InterruptEntry := by
  intro s inp fiq irq
  have hfiq := fiqTaken_iff s
  have hirq := irqTaken_iff s
  refine ⟨fun hf => ?fiq, fun hf hi => ?irq, fun hf hi => ?none⟩
  case fiq => exact ⟨_, step_of_fiqTaken (hfiq.mpr hf), interruptEntry_entered s _ _ _ rfl, interruptEntry_mem s ..⟩
  case irq =>
    have hf' : s.afterInput.fiqTaken s.nextInput = false := by rw [← Bool.not_eq_true, hfiq]; exact hf
    exact ⟨_, step_of_irqTaken hf' (hirq.mpr hi), interruptEntry_entered s _ _ _ rfl, interruptEntry_mem s ..⟩
  case none =>
    rw [noInterrupt_iff, ← Bool.not_eq_true, ← Bool.not_eq_true, hfiq, hirq]
    exact ⟨hf, hi⟩

/-! ## The return -/

/-- R14 of an exception mode is a register of that mode alone (R52). -/
theorem phys_ne_link {m : Mode} (hm : m = .svc ∨ m = .irq ∨ m = .fiq) {k : Mode} {n : Reg} (h : ¬ (n = 14 ∧ k = m)) :
    phys n k ≠ phys 14 m := by
  revert n
  rcases hm with rfl | rfl | rfl <;> cases k <;> decide

/-- A data-processing return right after an entry, whose result is the interrupted pc, brings back the CPSR, the pc and every
register but the link (R620, R621). -/
theorem return_after_entry {s t : State} {m : Mode} {vector link : Word} {setF : Bool} (hwf : s.WellFormed)
    (hm : m = .svc ∨ m = .irq ∨ m = .fiq) (h : EnteredException s t m vector link setF) {i : Instr} {op : AluOp} {a : Word}
    {o : Shifted} {x pc : Word} (hexec : exec i t = dataProcess op true 15 a o x t) (hop : isTest op = false)
    (hres : (alu op a o t.flagC t.flagV).res = pc) (hpc : s.alignPc pc = pc) :
    Completes i t fun v =>
      v.cpsr = s.cpsr ∧ v.pc = pc ∧ ∀ k n, n ≠ 15 → ¬ (n = 14 ∧ k = m) → v.readBank k n = s.readBank k n := by
  have hspsr : t.spsr = some s.cpsr := by rw [State.spsr, h.mode, h.saved, implemented_of_reserved hwf.cpsr]
  obtain ⟨k, hk⟩ := Option.isSome_iff_exists.mp hwf.mode
  obtain ⟨v, hnext, hcpsr, hvpc, hregs⟩ := dataProcess_return hop a o x hspsr hk
  refine ⟨v, hexec.trans hnext, hcpsr, ?_, fun k n hn hlink => ?_⟩
  · rw [hvpc, hres]
    exact hpc
  · have hphys : phys n k ≠ .pc := by simpa using hn
    exact (State.readPhys_congr hregs hphys).trans (h.registers _ hphys (phys_ne_link hm hlink))

/-- The link as the operand of the return (R64). -/
theorem EnteredException.readReg_link {s t : State} {m : Mode} {vector link : Word} {setF : Bool}
    (h : EnteredException s t m vector link setF) : t.readReg 14 = link := by
  rw [State.readReg, h.mode, h.link]

/-- Settles O57: each entry leaves the link its return needs, and the return finds the old CPSR in the SPSR. -/
theorem exceptionRoundTrip : Obligations.ExceptionRoundTrip := by
  intro s t hwf back resumed
  have hswi (h : softwareInterrupt s = .next t) : resumed := by
    obtain ⟨t', hnext, hentered, -⟩ := softwareInterrupt_entered s
    obtain rfl := Host.Outcome.next.inj (hnext.symm.trans h)
    refine return_after_entry hwf (.inl rfl) hentered (op := .mov) (o := shimmOperand t' 0 .lsl 14) rfl rfl ?_
      (State.WellFormed.align_add s hwf.pc)
    exact hentered.readReg_link
  refine ⟨fun cond comment hcond _ h => hswi ((conditional_pass hcond).symm.trans h), fun comment _ h => hswi h,
    fun hint h => ?_⟩
  have hirq {m : Mode} {vector : Word} {setF : Bool} (hm : m = .svc ∨ m = .irq ∨ m = .fiq)
      (hentered : EnteredException s t m vector (s.pc + 4) setF) :
      Completes (.subImm .al true 14 15 0 4) t (back t.mode s.pc) := by
    rw [hentered.mode]
    refine return_after_entry hwf hm hentered (op := .sub) (a := t.readReg 14) (o := immOperand 0 4 t.flagC) rfl rfl ?_ hwf.pc
    have himm : (immOperand 0 4 t.flagC).value = 4 := rfl
    show (addWithCarry (t.readReg 14) (~~~(immOperand 0 4 t.flagC).value) true).res = s.pc
    rw [hentered.readReg_link, himm, addWithCarry_not_true_eq]
    exact BitVec.add_sub_cancel s.pc 4
  rcases step_of_interrupt hint h with rfl | rfl
  · exact hirq (.inr (.inr rfl)) (interruptEntry_entered s 0x1C (s.pc + 4) true rfl)
  · exact hirq (.inr (.inl rfl)) (interruptEntry_entered s 0x18 (s.pc + 4) false rfl)

/-! ## Reset -/

/-- The CPSR after a hardware reset, at every value of the flags (R701, R702). -/
theorem resetCpsr_fields (f : BitVec 4) :
    let p : Word := f ++ 0x00000D3#28
    psrReserved p = 0 ∧ Mode.ofBits? (psrM p) = some .svc ∧ p &&& 0x0FFFFFFF#32 = 0xD3 ∧
      psrN p = f.getLsbD 3 ∧ psrZ p = f.getLsbD 2 ∧ psrC p = f.getLsbD 1 ∧ psrV p = f.getLsbD 0 := by
  revert f
  decide

/-- An address aligned for a word and so for a halfword is aligned for either set (R63). -/
theorem alignPc_of_aligned (s : State) {a : Word} (hword : alignWord a = a) (hhalf : alignHalf a = a) : s.alignPc a = a := by
  rw [State.alignPc]
  split
  · exact hhalf
  · exact hword

theorem resetHardware_inv (cfg : Config) (rr : ResetRegs) {mem : Memory} (hmem : mem.wf = true) :
    (State.resetHardware cfg rr mem).Inv := by
  obtain ⟨hreserved, hmode, -⟩ := resetCpsr_fields rr.flags
  refine ⟨⟨hmem, hreserved, Option.isSome_of_mem hmode, reserved_implemented _, reserved_implemented _,
    reserved_implemented _, reserved_implemented _, reserved_implemented _, ?pc, BitVec.zero_and⟩, rfl⟩
  case pc => exact alignPc_of_aligned (a := 0) _ (by decide) (by decide)

theorem resetSkipBios_inv (cfg : Config) {mem : Memory} (hmem : mem.wf = true) : (State.resetSkipBios cfg mem).Inv := by
  have hcpsr : psrReserved 0x1F = 0 := by decide
  have hspsr : psrReserved 0 = 0 := by decide
  exact ⟨⟨hmem, hcpsr, rfl, hspsr, hspsr, hspsr, hspsr, hspsr,
    alignPc_of_aligned (a := 0x08000000) _ (by decide) (by decide), BitVec.zero_and⟩, rfl⟩

/-- Settles O53. -/
theorem resetMeetsInvariant : Obligations.ResetMeetsInvariant := by
  have hall (entry : ResetEntry) (cfg : Config) (rr : ResetRegs) (mem : Memory) (hmem : mem.wf = true) :
      (State.resetWith entry cfg rr mem).Inv := by
    cases entry with
    | hardware => exact resetHardware_inv cfg rr hmem
    | skipBios => exact resetSkipBios_inv cfg hmem
  exact ⟨hall, hall .hardware _ _ _ (by decide)⟩

/-- The banks after a reset that skips the BIOS: 0 but for three stack pointers (R705). -/
theorem resetSkipBios_readBank (cfg : Config) (mem : Memory) (m : Mode) {n : Reg} (hn : n ≠ 13) (hpc : n ≠ 15) :
    (State.resetSkipBios cfg mem).readBank m n = 0 := by
  have hclosed : ∀ n : Reg, n ≠ 13 → n ≠ 15 → (State.resetSkipBios Config.default Memory.reset).readBank m n = 0 := by
    cases m <;> decide
  have hregs : (State.resetSkipBios cfg mem).regs = (State.resetSkipBios Config.default Memory.reset).regs := rfl
  exact (State.readPhys_congr hregs (by simpa using hpc)).trans (hclosed n hn hpc)

/-- Settles O54. -/
theorem resetValues : Obligations.ResetValues := by
  intro cfg rr mem hw sb supplied
  obtain ⟨-, hmode, hlow, hn, hz, hc, hv⟩ := resetCpsr_fields rr.flags
  have hsup (x : Word) : x &&& psrImplemented &&& psrImplemented = x &&& 0xF00000FF#32 := by
    rw [BitVec.and_assoc, BitVec.and_self, psrImplemented]
  refine ⟨⟨hlow, ⟨hn, hz, hc, hv⟩, ?mode, rfl, rfl, rfl, rfl, rfl, ?_, ?_, ?_, ?_, ?_⟩,
    ⟨rfl, rfl, rfl, rfl, rfl, rfl, rfl, rfl, rfl, rfl, rfl, rfl, fun m _ => resetSkipBios_readBank cfg mem m, rfl, rfl, rfl, rfl,
      rfl⟩⟩
  case mode => exact congrArg (Option.getD · .usr) hmode
  all_goals exact congrArg some (hsup _)

end Sys2Proof.Machine

/-! Status-register transfers (O20, O22), the long multiplies (O25) and BX (O35). -/

namespace Sys2Proof.Machine

/-! ## MRS -/

/-- MRS writes the PSR it found to its register (R284). -/
theorem moveFromPsr_done {spsr : Bool} {rd : Reg} {s : State} {v : Word}
    (hv : (if spsr then s.spsr else some s.readCpsr) = some v) (hrd : Allowed s (rd = 15)) :
    ∃ t, moveFromPsr spsr rd s = .next t ∧ WroteReg s t rd v ∧ SameFlags s t := by
  refine ⟨_, ?_, writeReg_finish_done (u := s.chargeCode .S) rfl rfl rd v⟩
  rw [moveFromPsr, hv]
  exact checked_of_allowed hrd

/-- Settles O20. -/
theorem moveFromStatus : Obligations.MoveFromStatus := by
  intro cond rd s hcond hrd
  exact ⟨.conditional hcond rfl (moveFromPsr_done rfl hrd), fun p hp => .conditional hcond rfl (moveFromPsr_done hp hrd)⟩

/-! ## MSR to the SPSR -/

/-- A PSR with the flags of another value, bit by bit (R286). -/
theorem getLsbD_withFlags_of (p v : Word) {i : Nat} (hi : i < 32) :
    (psrWithFlags p (psrN v) (psrZ v) (psrC v) (psrV v)).getLsbD i = if i < 28 then p.getLsbD i else v.getLsbD i := by
  split
  case isTrue h => exact getLsbD_withFlags p _ _ _ _ h
  case isFalse h =>
    rcases (by omega : i = 28 ∨ i = 29 ∨ i = 30 ∨ i = 31) with rfl | rfl | rfl | rfl
    · exact psrV_withFlags ..
    · exact psrC_withFlags ..
    · exact psrZ_withFlags ..
    · exact psrN_withFlags ..

/-- A PSR with the control byte of another value, bit by bit (R288). -/
theorem getLsbD_withControl_of (p v : Word) (i : Nat) :
    (psrWithControl p (psrI v) (psrF v) (psrT v) (psrM v)).getLsbD i = if i < 8 then v.getLsbD i else p.getLsbD i := by
  split
  case isFalse h => exact getLsbD_withControl p _ _ _ _ (Nat.le_of_not_lt h)
  case isTrue h =>
    rcases (by omega : i < 5 ∨ i = 5 ∨ i = 6 ∨ i = 7) with h5 | rfl | rfl | rfl
    · have hm := congrArg (fun m : BitVec 5 => m.getLsbD i) (psrM_withControl p (psrI v) (psrF v) (psrT v) (psrM v))
      simpa [psrM, h5] using hm
    · exact psrT_withControl ..
    · exact psrF_withControl ..
    · exact psrI_withControl ..

/-- The SPSR that MSR leaves, bit by bit (R286, R288). -/
theorem getLsbD_msrSpsr (p v : Word) (mask : PsrMask) {i : Nat} (hi : i < 32) :
    (msrSpsr p v mask).getLsbD i = if i < 8 then (if mask.c then v else p).getLsbD i
      else if i < 28 then p.getLsbD i else (if mask.f then v else p).getLsbD i := by
  cases hf : mask.f <;> cases hc : mask.c <;>
    simp only [msrSpsr, hf, hc, if_true, Bool.false_eq_true, if_false, getLsbD_withFlags_of _ _ hi, getLsbD_withControl_of,
      ite_self]
  · by_cases h8 : i < 8
    · rw [if_pos h8, if_pos (show i < 28 by omega)]
    · rw [if_neg h8]

/-- What MSR leaves of an SPSR as it reads: the flags by `f`, the control byte by `c` (R71, R286, R288). -/
theorem msrSpsr_implemented (p v : Word) (mask : PsrMask) :
    msrSpsr p v mask &&& psrImplemented =
      ((if mask.f then v &&& 0xF0000000#32 else p &&& 0xF0000000#32) ||| (if mask.c then v &&& 0xFF#32 else p &&& 0xFF#32)) := by
  have hmasks : ∀ i < 32, psrImplemented.getLsbD i = (decide (i < 8) || !decide (i < 28)) ∧
      (0xF0000000#32).getLsbD i = !decide (i < 28) ∧ (0xFF#32).getLsbD i = decide (i < 8) := by decide
  rw [← apply_ite (· &&& 0xF0000000#32), ← apply_ite (· &&& 0xFF#32)]
  apply BitVec.eq_of_getLsbD_eq
  intro i hi
  obtain ⟨himpl, hhigh, hlow⟩ := hmasks i hi
  simp only [BitVec.getLsbD_and, BitVec.getLsbD_or, himpl, hhigh, hlow, getLsbD_msrSpsr p v mask hi]
  by_cases h8 : i < 8
  · have h28 : i < 28 := by omega
    simp only [h8, h28, if_true, decide_true, Bool.not_true, Bool.and_false, Bool.false_or, Bool.true_or]
  · by_cases h28 : i < 28
    · simp only [h8, h28, decide_true, decide_false, Bool.not_true, Bool.or_false, Bool.and_false]
    · simp only [h8, h28, if_false, decide_false, Bool.not_false, Bool.or_true, Bool.and_true, Bool.and_false, Bool.or_false]

theorem moveToSpsr_done {mask : PsrMask} {fromPc : Bool} {s : State} {p : Word} (v : Word) (hp : s.spsr = some p)
    (hrm : Allowed s fromPc) :
    ∃ t, moveToPsr true mask fromPc v s = .next t ∧
      t.spsrOf s.mode = some ((if mask.f then v &&& 0xF0000000#32 else p &&& 0xF0000000#32) |||
        (if mask.c then v &&& 0xFF#32 else p &&& 0xFF#32)) ∧
      (∀ m, m ≠ s.mode → t.spsrOf m = s.spsrOf m) ∧ t.cpsr = s.cpsr ∧ t.pc = s.pc + s.ilen := by
  let t := ((s.chargeCode .S).writeSpsrOf s.mode (msrSpsr p v mask)).finish false
  have hread (k : Mode) : t.spsrOf k =
      if s.mode = k then (s.spsrOf k).map fun _ => msrSpsr p v mask &&& psrImplemented else s.spsrOf k :=
    spsrOf_writeSpsrOf (s.chargeCode .S) s.mode k _
  have hp' : s.spsrOf s.mode = some p := hp
  refine ⟨t, ?_, ?_, fun m hm => ?_, by simp [t], ?_⟩
  · rw [moveToPsr, if_pos rfl, moveToSpsr, hp]
    exact checked_of_allowed hrm
  · rw [hread, if_pos rfl, hp', Option.map_some, msrSpsr_implemented]
  · rw [hread, if_neg hm.symm]
  · have hilen : ((s.chargeCode .S).writeSpsrOf s.mode (msrSpsr p v mask)).ilen = s.ilen := State.ilen_congr (by simp)
    simp [t, hilen]

/-- Settles O22. -/
theorem moveToSpsr_holds : Obligations.MoveToSpsr := by
  intro cond mask s p hcond hp done
  exact ⟨fun rm hrm => .conditional hcond rfl (moveToSpsr_done _ hp hrm),
    fun rotate imm => .conditional hcond rfl (moveToSpsr_done _ hp (by simp [Allowed]))⟩

/-! ## The long multiplies -/

/-- The common end of the long multiplies: RdLo, then RdHi over it, then the flags (R301, R302). -/
theorem multiplyLong_done (sf : Bool) (rdHi rdLo : Reg) (res : BitVec 64) (m : Word) (s : State) :
    ∃ t, multiplyLong sf rdHi rdLo res m s = .next t ∧ MulLongDone sf rdHi rdLo res s t := by
  let low := res.extractLsb' 0 32
  let high := res.extractLsb' 32 32
  let u := ((s.chargeCode .S).internal m).writeReg rdLo low
  let w := u.writeReg rdHi high
  have hcpsr : w.cpsr = s.cpsr := (State.writeReg_cpsr u rdHi high).trans (State.writeReg_cpsr _ rdLo low)
  have hhi (h : rdHi ≠ 15) : w.readReg rdHi = high := (State.readReg_writeReg u rdHi rdHi high h).trans (if_pos rfl)
  have hlo (hne : rdLo ≠ rdHi) (h : rdLo ≠ 15) : w.readReg rdLo = low :=
    (State.readReg_writeReg u rdHi rdLo high h).trans ((if_neg hne.symm).trans
      ((State.readReg_writeReg _ rdLo rdLo low h).trans (if_pos rfl)))
  have hpc : w.pc = if rdHi = 15 then s.alignPc high else if rdLo = 15 then s.alignPc low else s.pc := by
    rw [pc_writeReg_eq_ite, pc_writeReg_eq_ite, State.alignPc_congr (State.writeReg_cpsr _ rdLo low)]
    rfl
  -- The end of the instruction, for any update of the flags alone.
  have hend (x : State) (hread : ∀ n, x.readReg n = w.readReg n) (hxpc : x.pc = w.pc) (hilen : x.ilen = s.ilen) :
      let t := x.finish (rdLo = 15 || rdHi = 15)
      (rdHi ≠ 15 → t.readReg rdHi = high) ∧ (rdLo ≠ rdHi → rdLo ≠ 15 → t.readReg rdLo = low) ∧
        t.pc = if rdHi = 15 then s.alignPc high else if rdLo = 15 then s.alignPc low else s.pc + s.ilen := by
    refine ⟨fun h => ?_, fun hne h => ?_, ?_⟩
    · rw [readReg_finish _ _ h, hread, hhi h]
    · rw [readReg_finish _ _ h, hread, hlo hne h]
    · by_cases h1 : rdHi = 15 <;> by_cases h2 : rdLo = 15 <;> simp [h1, h2, hxpc, hpc, hilen]
  obtain ⟨-, -, hC, hV⟩ := flags_congr hcpsr
  cases sf with
  | false =>
    obtain ⟨h1, h2, h3⟩ := hend w (fun _ => rfl) rfl (State.ilen_congr hcpsr)
    exact ⟨_, rfl, h1, h2, h3, flags_congr ((State.finish_cpsr _ _).trans hcpsr)⟩
  | true =>
    obtain ⟨h1, h2, h3⟩ := hend (w.setNZ64 res) (fun _ => readReg_writeFlags ..) rfl
      ((ilen_writeFlags ..).trans (State.ilen_congr hcpsr))
    refine ⟨_, rfl, h1, h2, h3, ?_⟩
    rw [← hC, ← hV]
    exact flagsAre_writeFlags_finish ..

/-- The unsigned product of 64 bits as a number (R305). -/
theorem zeroExtend_mul (x y : Word) : x.zeroExtend 64 * y.zeroExtend 64 = BitVec.ofNat 64 (x.toNat * y.toNat) := by
  rw [BitVec.ofNat_mul, BitVec.ofNat_toNat, BitVec.ofNat_toNat]

/-- The signed product of 64 bits as a number (R307). -/
theorem signExtend_mul (x y : Word) : x.signExtend 64 * y.signExtend 64 = BitVec.ofInt 64 (x.toInt * y.toInt) := by
  rw [BitVec.ofInt_mul]
  rfl

/-- The accumulator as a number (R306, R308). -/
theorem accumulator_eq (rdHi rdLo : Reg) (s : State) :
    accumulator rdHi rdLo s = BitVec.ofNat 64 ((s.readReg rdHi).toNat * 2 ^ 32 + (s.readReg rdLo).toNat) := by
  apply BitVec.eq_of_toNat_eq
  have hhi := (s.readReg rdHi).isLt
  have hlo := (s.readReg rdLo).isLt
  rw [accumulator, BitVec.toNat_append, BitVec.toNat_ofNat, Nat.mod_eq_of_lt (by omega), ← Nat.shiftLeft_eq,
    Nat.shiftLeft_add_eq_or_of_lt hlo]

/-- Settles O25: with allowed registers each form is the common end, at its product or its sum. -/
theorem multiply64 : Obligations.Multiply64 := by
  intro cond sf rdHi rdLo rs rm s hcond hregs unsigned signed acc
  have hdone (i : Instr) (res res' : BitVec 64) (m : Word)
      (hexec : exec i s = conditional cond s (s.checked (longRegisters rdHi rdLo rs rm) .mulRegisters
        (multiplyLong sf rdHi rdLo res m s))) (hres : res = res') : Completes i s (MulLongDone sf rdHi rdLo res' s) := by
    subst hres
    refine .conditional hcond hexec ?_
    rw [checked_of_allowed (show Allowed s (longRegisters rdHi rdLo rs rm) from hregs)]
    exact multiplyLong_done sf rdHi rdLo res m s
  refine ⟨hdone _ _ _ _ rfl (zeroExtend_mul ..), hdone _ _ _ _ rfl ?umlal, hdone _ _ _ _ rfl (signExtend_mul ..),
    hdone _ _ _ _ rfl ?smlal⟩
  case umlal => exact (congrArg₂ (· + ·) (zeroExtend_mul ..) (accumulator_eq ..)).trans (BitVec.ofNat_add ..).symm
  case smlal =>
    refine (congrArg₂ (· + ·) (signExtend_mul ..) (accumulator_eq ..)).trans ?_
    rw [BitVec.ofInt_add, BitVec.ofInt_natCast]

/-! ## BX -/

/-- BX changes T of the CPSR, and the pc (R373). -/
theorem branchExchange_done (v : Word) (s : State) :
    ∃ t, branchExchange v s = .next t ∧ t.thumb = v.getLsbD 0 ∧
      (t.pc = if v.getLsbD 0 then v &&& 0xFFFFFFFE#32 else v &&& 0xFFFFFFFC#32) ∧ SameFlags s t ∧
      psrI t.cpsr = psrI s.cpsr ∧ psrF t.cpsr = psrF s.cpsr ∧ psrM t.cpsr = psrM s.cpsr ∧ t.regs = s.regs := by
  refine ⟨_, rfl, ?_, ?_, ⟨?_, ?_, ?_, ?_⟩, ?_, ?_, ?_, ?_⟩ <;>
    simp [State.thumb, State.alignPc, State.flagN, State.flagZ, State.flagC, State.flagV]

/-- Settles O35. -/
theorem branchExchanges : Obligations.BranchExchanges := by
  intro s done
  refine ⟨fun cond rm hcond => .conditional hcond rfl (branchExchange_done _ s), fun h1 h2 rs rd hh1 => ?_⟩
  obtain ⟨t, hnext, hpost⟩ := branchExchange_done (s.readReg (hiReg h2 rs)) s
  exact ⟨t, (checked_of_allowed hh1).trans hnext, hpost⟩

end Sys2Proof.Machine

/-! The Thumb branches (O45), and the Thumb forms that run as ARM instructions (O46). -/

namespace Sys2Proof.Machine

/-! ## Thumb branches -/

section Thumb
variable {s : State} (hthumb : s.thumb = true)
include hthumb

theorem alignPc_of_thumb (v : Word) : s.alignPc v = alignHalf v := by
  rw [State.alignPc, hthumb]
  rfl

theorem ilen_of_thumb : s.ilen = 2 := by
  rw [State.ilen, hthumb]
  rfl

/-- From an aligned pc an even offset leads to an aligned address (R66, R478). -/
theorem alignPc_even_offset (hpc : s.alignPc s.pc = s.pc) (k : Int) :
    s.alignPc (BitVec.ofInt 32 (s.pc.toNat + 4 + 2 * k)) = BitVec.ofInt 32 (s.pc.toNat + 4 + 2 * k) := by
  rw [alignPc_of_thumb hthumb, alignHalf_eq_self_iff] at hpc ⊢
  rw [BitVec.toNat_ofInt]
  omega

/-- A Thumb branch by a signed offset of halfwords (R478, R480). -/
theorem thumbBranch_done (hpc : s.alignPc s.pc = s.pc) {w : Nat} (imm : BitVec w) :
    ∃ t, branchTo (s.pc + 4 + (imm ++ 0#1).signExtend 32) s = .next t ∧
      t.pc = BitVec.ofInt 32 (s.pc.toNat + 4 + 2 * imm.toInt) ∧ t.regs = s.regs ∧ t.cpsr = s.cpsr := by
  obtain ⟨t, hnext, htpc, hcpsr, hregs⟩ := branchTo_done (s.pc + 4 + (imm ++ 0#1).signExtend 32) s
  refine ⟨t, hnext, ?_, hregs, hcpsr⟩
  have htarget : s.pc + 4 + (imm ++ 0#1).signExtend 32 = BitVec.ofInt 32 (s.pc.toNat + 4 + 2 * imm.toInt) := by
    rw [signExtend_append_zero]
    exact add_ofNat_add_ofInt s.pc 4 _
  rw [htpc, htarget, alignPc_even_offset hthumb hpc]

/-- The second half of BL (R487). -/
theorem blLo_done (imm : BitVec 11) :
    ∃ t, exec (.tBlLo imm) s = .next t ∧ t.pc = (s.readReg 14 + BitVec.ofNat 32 (2 * imm.toNat)) &&& 0xFFFFFFFE#32 ∧
      t.readReg 14 = (s.pc + 2) ||| 1 ∧ t.cpsr = s.cpsr := by
  let linked := s.writeReg 14 ((s.pc + 2) ||| 1)
  have hlinked : linked.cpsr = s.cpsr := State.writeReg_cpsr s 14 _
  obtain ⟨t, hnext, htpc, hcpsr, hregs⟩ := branchTo_done (s.readReg 14 + (imm ++ 0#1).zeroExtend 32) linked
  have hoff : (imm ++ 0#1).zeroExtend 32 = BitVec.ofNat 32 (2 * imm.toNat) := by
    apply BitVec.eq_of_toNat_eq
    have happend : (imm ++ 0#1).toNat = 2 * imm.toNat := by
      rw [BitVec.toNat_append, BitVec.toNat_ofNat, Nat.zero_mod, Nat.or_zero, Nat.shiftLeft_eq, Nat.mul_comm]
    simp [happend]
  refine ⟨t, hnext, ?_, ?_, hcpsr.trans hlinked⟩
  · rw [htpc, State.alignPc_congr hlinked, alignPc_of_thumb hthumb, hoff, alignHalf]
  · rw [readReg_congr_of_ne_pc hregs hcpsr (by decide), State.readReg_writeReg _ _ _ _ (by decide), if_pos rfl]

end Thumb

/-- The offset of BL from its two halves (R481): the first counts units of 4096 bytes, the second halfwords. -/
theorem blOffset_eq (pc : Int) (high low : BitVec 11) :
    BitVec.ofInt 32 (pc + 4096 * high.toInt) + BitVec.ofNat 32 (2 * low.toNat) =
      BitVec.ofInt 32 (pc + 2 * (high ++ low).toInt) := by
  have happend : (high ++ low).toInt = 2048 * high.toInt + low.toNat := BitVec.toInt_append
  rw [← BitVec.ofInt_natCast, ← BitVec.ofInt_add, happend]
  congr 1
  push_cast
  ring

/-- Settles O45: the halves of BL join in R14, and the sum of their offsets is even, so that it needs no alignment. -/
theorem thumbBranches : Obligations.ThumbBranches := by
  intro s hthumb hpc
  refine ⟨fun cond imm hcond => .conditional hcond rfl (thumbBranch_done hthumb hpc imm),
    fun imm => thumbBranch_done hthumb hpc imm, blLo_done hthumb, fun high low => ?bl⟩
  case bl =>
    have hlink : s.pc + 4 + (high ++ 0#12).signExtend 32 = BitVec.ofInt 32 (s.pc.toNat + 4 + 4096 * high.toInt) := by
      rw [signExtend_append_zero]
      exact add_ofNat_add_ofInt s.pc 4 _
    obtain ⟨t, hnext, hreg, htpc, hcpsr⟩ :=
      writeAddress_done (rd := 14) (by decide) (s.pc + 4 + (high ++ 0#12).signExtend 32) s
    rw [ilen_of_thumb hthumb] at htpc
    rw [hlink] at hreg
    refine ⟨t, hnext, htpc, hcpsr, hreg, ?_⟩
    have hthumb' : t.thumb = true := (State.thumb_congr hcpsr).trans hthumb
    obtain ⟨t', hnext', hpc', hreg', -⟩ := blLo_done hthumb' low
    refine ⟨t', hnext', ?pc, ?link⟩
    case pc =>
      rw [hpc', hreg, blOffset_eq]
      exact (alignPc_of_thumb hthumb _).symm.trans (alignPc_even_offset hthumb hpc _)
    case link =>
      rw [hreg', htpc]
      exact congrArg (· ||| 1) (BitVec.add_assoc s.pc 2 2)

/-! ## Thumb forms as ARM instructions -/

theorem lo_inj {a b : LoReg} : lo a = lo b ↔ a = b := by
  revert a b
  decide

/-- An immediate rotated by 0 (R238). -/
theorem immOperand_zero (imm : BitVec 8) (s : State) : immOperand 0 imm s.flagC = plain (imm.zeroExtend 32) s := by
  have h : rotatedImm 0 imm = imm.zeroExtend 32 := by simp [rotatedImm, BitVec.rotateRight_def]
  rw [immOperand, h]
  rfl

/-- A low register reads the same in a form with a register shift (R237). -/
theorem readShiftReg_lo (r : LoReg) (s : State) : s.readShiftReg (lo r) = s.readReg (lo r) := if_neg (lo_ne_pc r)

/-- Settles O46: condition AL passes, a low register passes the checks on R15, and what is left are the operands of the Thumb
form. -/
theorem thumbRunsAsArm : Obligations.ThumbRunsAsArm := by
  intro ro rs rd imm5 imm8 lr s same
  have hal {body : Result} : conditional .al s body = body := conditional_pass rfl
  have pass {bad : Bool} {c : UnpredictableCase} {k : Result} (h : bad = false) : s.checked bad c k = k :=
    checked_of_allowed fun _ => h
  have hlo (r : LoReg) : decide (lo r = 15) = false := decide_eq_false (lo_ne_pc r)
  have himm (op : AluOp) (a : Word) (imm : BitVec 8) : dataProcess op true (lo rd) a (plain (imm.zeroExtend 32) s) 0 s =
      dataProcess op true (lo rd) a (immOperand 0 imm s.flagC) 0 s := by rw [immOperand_zero]
  refine ⟨hal.symm, hal.symm, hal.symm, hal.symm, hal.symm, (himm .mov 0 imm8).trans hal.symm,
    (himm .cmp (s.readReg (lo rd)) imm8).trans hal.symm, hal.symm, ?ror, (himm .rsb (s.readReg (lo rs)) 0).trans hal.symm, ?mul,
    hal.symm, ?str, ?ldsh, ?push, ?pop, hal.symm, hal.symm⟩
  case ror =>
    refine Eq.trans ?_ hal.symm
    rw [dataProcShreg, pass (hlo rs), shregOperand, readShiftReg_lo, readShiftReg_lo]
    rfl
  case mul =>
    refine Eq.trans ?_ hal.symm
    have hbad : decide (rd = rs) = (lo rd = lo rs || lo rd = 15 || lo rs = 15 || lo rd = 15 : Bool) := by
      simp [lo_inj]
    exact congrArg (s.checked · _ _) hbad
  case str =>
    refine Eq.trans ?_ hal.symm
    rw [pass (hlo ro), storeSingle, pass (by simp [lo_ne_pc]), State.storeValue, if_neg (lo_ne_pc rd)]
    rfl
  case ldsh =>
    refine Eq.trans ?_ hal.symm
    rw [pass (hlo rd), pass (hlo ro), loadSingle, pass (by simp [lo_ne_pc])]
    rfl
  case push => exact (congrArg (blockStore true false false true 13 · s) (stackList_push lr imm8)).trans hal.symm
  case pop => exact (congrArg (blockLoad false true false true 13 · s) (stackList_pop lr imm8)).trans hal.symm

end Sys2Proof.Machine

/-! Single loads and stores, and swaps (O26 to O29, O33, O41, O42). -/

namespace Sys2Proof.Machine

/-! ## The value of a load -/

/-- An odd address whose halfword is read as the ARM7TDMI does (R333, R335). -/
theorem oddHalfArm7_iff (s : State) (a : Word) :
    oddHalfArm7 s a = true ↔ a.getLsbD 0 = true ∧ s.config.misalignedHalf = .arm7 := by
  simp [oddHalfArm7]

theorem loadValue_half (s : State) (a : Word) :
    loadValue .half s a = if a.getLsbD 0 = true ∧ s.config.misalignedHalf = .arm7 then
      ((halfAt s (a &&& 0xFFFFFFFE#32)).zeroExtend 32).rotateRight 8 else (halfAt s a).zeroExtend 32 :=
  if_congr (oddHalfArm7_iff s a) rfl rfl

theorem loadValue_signedHalf (s : State) (a : Word) :
    loadValue .signedHalf s a = if a.getLsbD 0 = true ∧ s.config.misalignedHalf = .arm7 then
      (s.mem.byte a).signExtend 32 else (halfAt s a).signExtend 32 :=
  if_congr (oddHalfArm7_iff s a) rfl rfl

/-! ## Register writes -/

/-- The whole write of registers, as the register and the pc apart (R66). -/
theorem wroteReg_iff {s t : State} {rd : Reg} {v : Word} :
    WroteReg s t rd v ↔ (rd ≠ 15 → t.readReg rd = v) ∧ t.pc = if rd = 15 then s.alignPc v else s.pc + s.ilen := by
  by_cases h : rd = 15 <;> simp [WroteReg, h]

section RegisterWrites
variable {s u : State} (hpc : u.pc = s.pc) (hcpsr : u.cpsr = s.cpsr)
include hpc hcpsr

/-- The end of an instruction that wrote back at most a base (R248, R249). -/
theorem writeBase_finish_done (wb : Option (Reg × Word)) :
    let t := (writeBase wb u).finish (branchesBase wb)
    (∀ n x, wb = some (n, x) → WroteReg s t n x) ∧ (wb = none → t.pc = s.pc + s.ilen) ∧ SameFlags s t := by
  cases wb with
  | none => exact ⟨by simp, fun _ => by simp [writeBase, branchesBase, hpc, State.ilen_congr hcpsr],
      flags_congr ((State.finish_cpsr _ _).trans hcpsr)⟩
  | some b =>
    obtain ⟨hwrote, hflags⟩ := writeReg_finish_done hpc hcpsr b.1 b.2
    refine ⟨fun n x h => ?_, by simp, hflags⟩
    obtain rfl := Option.some.inj h
    exact hwrote

/-- The register writes of a load with a written-back base that is not R15 (R248). -/
theorem writeLoaded_finish_base {rn rd : Reg} (hrn : rn ≠ 15) (hne : rn ≠ rd) (x v : Word) :
    let t := (writeLoaded (some (rn, x)) rd v u).finish (rd = 15 || branchesBase (some (rn, x)))
    t.readReg rn = x ∧ WroteReg s t rd v ∧ SameFlags s t := by
  have hfinish : (decide (rd = 15) || branchesBase (some (rn, x))) = decide (rd = 15) := by simp [branchesBase, hrn]
  have hwrite : writeLoaded (some (rn, x)) rd v u = (u.writeReg rn x).writeReg rd v := by
    simp [writeLoaded, branchesBase, hrn, writeBase]
  rw [hfinish, hwrite]
  refine ⟨?_, writeReg_finish_done ((State.pc_writeReg u x hrn).trans hpc) ((State.writeReg_cpsr u rn x).trans hcpsr) rd v⟩
  rw [readReg_finish _ _ hrn, State.readReg_writeReg _ _ _ _ hrn, if_neg hne.symm, State.readReg_writeReg _ _ _ _ hrn, if_pos rfl]

omit hpc in
/-- The register writes of a load with a write-back to R15, which is the branch (R249, assumption 8). -/
theorem writeLoaded_finish_pc (rd : Reg) (x v : Word) :
    let t := (writeLoaded (some (15, x)) rd v u).finish (rd = 15 || branchesBase (some (15, x)))
    (rd ≠ 15 → t.readReg rd = v) ∧ t.pc = s.alignPc x ∧ SameFlags s t := by
  have hfinish : (decide (rd = 15) || branchesBase (some (15, x))) = true := by simp [branchesBase]
  have hbase : (u.writeReg 15 x).pc = s.alignPc x := by rw [pc_writeReg_eq_ite, if_pos rfl, State.alignPc_congr hcpsr]
  rw [hfinish]
  by_cases hrd : rd = 15
  · have hwrite : writeLoaded (some (15, x)) rd v u = u.writeReg 15 x := by simp [writeLoaded, branchesBase, hrd, writeBase]
    rw [hwrite]
    exact ⟨fun h => absurd hrd h, by simpa using hbase, flags_congr ((State.finish_cpsr _ _).trans (by simpa using hcpsr))⟩
  · have hwrite : writeLoaded (some (15, x)) rd v u = (u.writeReg 15 x).writeReg rd v := by
      simp [writeLoaded, branchesBase, hrd, writeBase]
    rw [hwrite]
    refine ⟨fun _ => ?_, ?_, flags_congr ((State.finish_cpsr _ _).trans (by simpa using hcpsr))⟩
    · rw [readReg_finish _ _ hrd, State.readReg_writeReg _ _ _ _ hrd, if_pos rfl]
    · rw [State.finish_pc, if_pos rfl, State.pc_writeReg _ _ hrd, hbase]

end RegisterWrites

/-! ## Loads -/

/-- The body of a load without a write-back: Rd, or a branch, and the flags kept (R320). -/
theorem loadFrom_done (k : LoadKind) (rd : Reg) (a : Word) (s : State) :
    ∃ t, loadFrom k rd a none s = .next t ∧ WroteReg s t rd (loadValue k s a) ∧ SameFlags s t := by
  refine ⟨_, ?_, writeReg_finish_done (u := ((s.chargeCode .S).charge a k.width .N).internal 1) rfl rfl rd _⟩
  simp [loadFrom, writeLoaded, branchesBase, writeBase]

/-- The body of a load with a written-back base that is neither Rd nor R15 (R248). -/
theorem loadFrom_base_done (k : LoadKind) {rn rd : Reg} (hrn : rn ≠ 15) (hne : rn ≠ rd) (a x : Word) (s : State) :
    ∃ t, loadFrom k rd a (some (rn, x)) s = .next t ∧ t.readReg rn = x ∧ WroteReg s t rd (loadValue k s a) := by
  obtain ⟨hbase, hwrote, -⟩ := writeLoaded_finish_base (s := s) (u := ((s.chargeCode .S).charge a k.width .N).internal 1)
    rfl rfl hrn hne x (loadValue k s a)
  exact ⟨_, rfl, hbase, hwrote⟩

/-- The body of a load with a write-back to R15, which is the branch (R249, assumption 8). -/
theorem loadFrom_pc_done (k : LoadKind) (rd : Reg) (a x : Word) (s : State) :
    ∃ t, loadFrom k rd a (some (15, x)) s = .next t ∧ (rd ≠ 15 → t.readReg rd = loadValue k s a) ∧ t.pc = s.alignPc x := by
  obtain ⟨hrd, hpc, -⟩ := writeLoaded_finish_pc (s := s) (u := ((s.chargeCode .S).charge a k.width .N).internal 1)
    rfl rd x (loadValue k s a)
  exact ⟨_, rfl, hrd, hpc⟩

/-- A load by base and offset, at any value it loads (R245, R248, R249, R320, assumption 8). -/
theorem loadSingle_done (k : LoadKind) {p u w : Bool} {rn : Reg} (rd : Reg) (off : Word) {s : State}
    (hbase : Allowed s ((!p || w) && rn = 15)) :
    ∃ t, loadSingle k p u w rn rd off s = .next t ∧ LoadDone (loadValue k s) p u w rn rd off s t := by
  rw [loadSingle, checked_of_allowed (show Allowed s (writesBack p w && rn = 15) from hbase)]
  by_cases hb : writesBack p w = true ∧ (rd ≠ rn ∨ rn = 15)
  · rw [if_pos (by simpa using hb)]
    by_cases hrn : rn = 15
    · subst hrn
      obtain ⟨t, hnext, hrd, hpc⟩ := loadFrom_pc_done k rd (accessAddr p u (s.readReg 15) off) (offsetAddr u (s.readReg 15) off) s
      exact ⟨t, hnext, hrd, fun _ _ h => absurd rfl h, hpc.trans (if_pos ⟨hb.1, rfl⟩).symm⟩
    · have hne : rn ≠ rd := fun h => hb.2.elim (fun h' => h' h.symm) hrn
      obtain ⟨t, hnext, hrn', hwrote⟩ := loadFrom_base_done k hrn hne (accessAddr p u (s.readReg rn) off)
        (offsetAddr u (s.readReg rn) off) s
      obtain ⟨hrd, hpc⟩ := wroteReg_iff.mp hwrote
      exact ⟨t, hnext, hrd, fun _ _ _ => hrn', hpc.trans (if_neg fun h => hrn h.2).symm⟩
  · rw [if_neg (by simpa using hb)]
    obtain ⟨t, hnext, hwrote, -⟩ := loadFrom_done k rd (accessAddr p u (s.readReg rn) off) s
    obtain ⟨hrd, hpc⟩ := wroteReg_iff.mp hwrote
    exact ⟨t, hnext, hrd, fun h hne => absurd ⟨h, .inl hne.symm⟩ hb, hpc.trans (if_neg fun h => hb ⟨h.1, .inr h.2⟩).symm⟩

/-- Settles O26: every form is a load by base and offset behind its condition and its checks. -/
theorem singleLoads : Obligations.SingleLoads := by
  intro cond p u w rn rd s hcond word byte base
  refine ⟨fun imm => ⟨fun hb => ?_, fun hb => ?_, fun hb hrd => ?_, fun hb hrd => ?_⟩, fun amount ty rm hrm =>
    ⟨fun hb => ?_, fun hb => ?_, fun hb hrd => ?_, fun hb hrd => ?_⟩⟩
  · exact .conditional hcond rfl (loadSingle_done .word rd _ hb)
  · exact .conditional hcond rfl (loadSingle_done .word rd _ hb)
  · refine .conditional hcond rfl ?_
    rw [checked_of_allowed hrd]
    exact loadSingle_done .byte rd _ hb
  · refine .conditional hcond rfl ?_
    rw [checked_of_allowed hrd]
    exact loadSingle_done .byte rd _ hb
  · refine .conditional hcond rfl ?_
    rw [checked_of_allowed hrm]
    exact loadSingle_done .word rd _ hb
  · refine .conditional hcond rfl ?_
    rw [checked_of_allowed hrm]
    exact loadSingle_done .word rd _ hb
  · refine .conditional hcond rfl ?_
    rw [checked_of_allowed hrm, checked_of_allowed hrd]
    exact loadSingle_done .byte rd _ hb
  · refine .conditional hcond rfl ?_
    rw [checked_of_allowed hrm, checked_of_allowed hrd]
    exact loadSingle_done .byte rd _ hb

/-- Settles O28: every form is a load by base and offset behind its condition and its checks. -/
theorem halfwordLoads : Obligations.HalfwordLoads := by
  intro cond p u w rn rd s hcond hbase hrd odd half signedByte signedHalf
  have hhalf : loadValue .half s = half := funext (loadValue_half s)
  have hsigned : loadValue .signedHalf s = signedHalf := funext (loadValue_signedHalf s)
  have done (k : LoadKind) (u : Bool) (off : Word) := loadSingle_done k (u := u) rd off hbase
  refine ⟨fun imm => ⟨?_, ?_, ?_⟩, fun rm hrm => ⟨?_, ?_, ?_⟩⟩
  · refine .conditional hcond rfl ?_
    rw [checked_of_allowed hrd, ← hhalf]
    exact done .half u _
  · refine .conditional hcond rfl ?_
    rw [checked_of_allowed hrd]
    exact done .signedByte u _
  · refine .conditional hcond rfl ?_
    rw [checked_of_allowed hrd, ← hsigned]
    exact done .signedHalf u _
  · refine .conditional hcond rfl ?_
    rw [checked_of_allowed hrd, checked_of_allowed hrm, ← hhalf]
    exact done .half u _
  · refine .conditional hcond rfl ?_
    rw [checked_of_allowed hrd, checked_of_allowed hrm]
    exact done .signedByte u _
  · refine .conditional hcond rfl ?_
    rw [checked_of_allowed hrd, checked_of_allowed hrm, ← hsigned]
    exact done .signedHalf u _

/-! ## Stores -/

/-- A byte just written, where it is mapped; an unmapped one reads 0 (R103). -/
theorem byte_stored {s : State} {b : Word} {x : Byte} :
    (if s.mem.mapped b = true then x else s.mem.byte b) = if s.mem.mapped b then x else 0 := by
  split
  · rfl
  · next h => exact Memory.byte_unmapped _ (by simpa using h)

theorem storedBytes_memWrite32 (a v : Word) (s : State) : StoredBytes (s.memWrite32 a v) (alignWord a) 4 v := by
  intro j hj
  rw [State.byte_memWrite32, offset_toNat _ hj, State.memWrite32_mapped, ← byte_stored]
  exact if_congr (and_iff_right hj) rfl rfl

/-- The bytes of a store stand at its address forced down to the width (R103, R323, R324, R332). -/
theorem storedBytes_storeAt (k : StoreKind) (a v : Word) (s : State) :
    StoredBytes (storeAt k a v s) (alignTo k.width a) k.bytes v := by
  cases k with
  | word => exact storedBytes_memWrite32 a v s
  | byte =>
    intro j hj
    obtain rfl : j = 0 := Nat.lt_one_iff.mp hj
    change (s.memWrite8 a (v.extractLsb' 0 8)).mem.byte (a + 0#32) =
      if (s.memWrite8 a (v.extractLsb' 0 8)).mem.mapped (a + 0#32) = true then v.extractLsb' 0 8 else 0
    rw [BitVec.add_zero, State.byte_memWrite8, State.memWrite8_mapped, ← byte_stored]
    exact if_congr (and_iff_right rfl) rfl rfl
  | half =>
    intro j hj
    change (s.memWrite16 a (v.extractLsb' 0 16)).mem.byte (alignHalf a + BitVec.ofNat 32 j) =
      if (s.memWrite16 a (v.extractLsb' 0 16)).mem.mapped (alignHalf a + BitVec.ofNat 32 j) = true then
        v.extractLsb' (8 * j) 8 else 0
    replace hj : j < 2 := hj
    rw [State.byte_memWrite16, offset_toNat _ (Nat.lt_trans hj (by decide)), State.memWrite16_mapped, ← byte_stored,
      extract_extract _ (by omega), Nat.zero_add]
    exact if_congr (and_iff_right hj) rfl rfl

/-- The stored bytes are a fact about memory alone. -/
theorem StoredBytes.congr {t t' : State} {a v : Word} {n : Nat} (hs : StoredBytes t a n v) (h : t'.mem = t.mem) :
    StoredBytes t' a n v := by
  rwa [StoredBytes, h]

theorem checkedPrefetch_of_noHazard {s : State} {a : Word} {n : Nat} {k : Result} (h : NoHazard s a n) :
    s.checkedPrefetch (s.inPrefetch a n) k = k :=
  checkedPrefetch_pass fun hc => Bool.false_ne_true ((h hc.1).symm.trans hc.2)

theorem storeAt_fields (k : StoreKind) (a v : Word) (s : State) :
    (storeAt k a v s).pc = s.pc ∧ (storeAt k a v s).cpsr = s.cpsr ∧ (storeAt k a v s).regs = s.regs := by
  cases k <;> simp [storeAt]

theorem writeBase_mem (wb : Option (Reg × Word)) (s : State) : (writeBase wb s).mem = s.mem := by
  cases wb <;> simp [writeBase]

/-- The body of a store: the state after the access, the write-back and the end of the instruction (R320). -/
theorem storeTo_done (k : StoreKind) (a v : Word) (wb : Option (Reg × Word)) {s : State}
    (hno : NoHazard s (alignTo k.width a) k.bytes) :
    ∃ t, storeTo k a v wb s = .next t ∧ StoredBytes t (alignTo k.width a) k.bytes v ∧
      (∀ n x, wb = some (n, x) → WroteReg s t n x) ∧ (wb = none → t.pc = s.pc + s.ilen ∧ t.regs = s.regs ∧ t.cpsr = s.cpsr) := by
  obtain ⟨hpc, hcpsr, hregs⟩ := storeAt_fields k a v ((s.chargeCode .N).charge a k.width .N)
  obtain ⟨hwrote, hnone, -⟩ := writeBase_finish_done (s := s) hpc hcpsr wb
  have hstored := storedBytes_storeAt k a v ((s.chargeCode .N).charge a k.width .N)
  refine ⟨_, checkedPrefetch_of_noHazard hno, hstored.congr ?_, hwrote, fun h => ⟨hnone h, ?_, ?_⟩⟩
  · rw [State.finish_mem, writeBase_mem]
  · subst h
    exact (State.finish_regs _ _).trans hregs
  · subst h
    exact (State.finish_cpsr _ _).trans hcpsr

/-- A store by base and offset, of any width (R245, R248, R249, R320, R325). -/
theorem storeSingle_done (k : StoreKind) {p u w : Bool} {rn : Reg} (rd : Reg) (off : Word) {s : State}
    (hbase : Allowed s ((!p || w) && rn = 15)) (hno : StoreAllowed k p u rn off s) :
    ∃ t, storeSingle k p u w rn rd off s = .next t ∧ StoreDone k p u w rn rd off s t := by
  rw [storeSingle, checked_of_allowed (show Allowed s (writesBack p w && rn = 15) from hbase)]
  obtain ⟨t, hnext, hstored, hsome, hnone⟩ := storeTo_done k (accessAddr p u (s.readReg rn) off) (s.storeValue rd)
    (if writesBack p w then some (rn, offsetAddr u (s.readReg rn) off) else none) hno
  refine ⟨t, hnext, hstored, ?_⟩
  by_cases hb : writesBack p w = true
  · obtain ⟨hrn, hpc⟩ := wroteReg_iff.mp (hsome _ _ (if_pos hb))
    exact ⟨fun _ => hrn, hpc.trans (if_congr (and_iff_right hb).symm rfl rfl)⟩
  · obtain ⟨hpc, -⟩ := hnone (if_neg hb)
    exact ⟨fun h => absurd h hb, hpc.trans (if_neg fun h => hb h.1).symm⟩

/-- Settles O27: every form is a store by base and offset behind its condition and its checks. -/
theorem singleStores : Obligations.SingleStores := by
  intro cond p u w rn rd s hcond base
  refine ⟨fun imm => ⟨fun hb hno => ?_, fun hb hno => ?_, fun hb hrd hno => ?_, fun hb hrd hno => ?_⟩, fun amount ty rm hrm =>
    ⟨fun hb hno => ?_, fun hb hno => ?_, fun hb hrd hno => ?_, fun hb hrd hno => ?_⟩⟩
  · exact .conditional hcond rfl (storeSingle_done .word rd _ hb hno)
  · exact .conditional hcond rfl (storeSingle_done .word rd _ hb hno)
  · refine .conditional hcond rfl ?_
    rw [checked_of_allowed hrd]
    exact storeSingle_done .byte rd _ hb hno
  · refine .conditional hcond rfl ?_
    rw [checked_of_allowed hrd]
    exact storeSingle_done .byte rd _ hb hno
  · refine .conditional hcond rfl ?_
    rw [checked_of_allowed hrm]
    exact storeSingle_done .word rd _ hb hno
  · refine .conditional hcond rfl ?_
    rw [checked_of_allowed hrm]
    exact storeSingle_done .word rd _ hb hno
  · refine .conditional hcond rfl ?_
    rw [checked_of_allowed hrm, checked_of_allowed hrd]
    exact storeSingle_done .byte rd _ hb hno
  · refine .conditional hcond rfl ?_
    rw [checked_of_allowed hrm, checked_of_allowed hrd]
    exact storeSingle_done .byte rd _ hb hno

/-- Settles O29: both forms are a store by base and offset behind their condition and their checks. -/
theorem halfwordStores : Obligations.HalfwordStores := by
  intro cond p u w rn rd s hcond hbase hrd
  refine ⟨fun imm hno => ?_, fun rm hrm hno => ?_⟩
  · refine .conditional hcond rfl ?_
    rw [checked_of_allowed hrd]
    exact storeSingle_done .half rd _ hbase hno
  · refine .conditional hcond rfl ?_
    rw [checked_of_allowed hrd, checked_of_allowed hrm]
    exact storeSingle_done .half rd _ hbase hno

/-! ## Swaps -/

/-- A swap: the old contents in Rd, and the low part of Rm at the same address (R119, R360, R361). -/
theorem swap_done (lk : LoadKind) (sk : StoreKind) {rn rd rm : Reg} {s : State}
    (hregs : Allowed s (rd = 15 || rm = 15 || rn = 15 || rn = rd || rn = rm))
    (hno : NoHazard s (alignTo sk.width (s.readReg rn)) sk.bytes) :
    ∃ t, swap lk sk rn rd rm s = .next t ∧ WroteReg s t rd (loadValue lk s (s.readReg rn)) ∧
      StoredBytes t (alignTo sk.width (s.readReg rn)) sk.bytes (s.readReg rm) := by
  obtain ⟨hpc, hcpsr, -⟩ := storeAt_fields sk (s.readReg rn) (s.readReg rm)
    (((s.chargeCode .S).charge (s.readReg rn) lk.width .N).charge (s.readReg rn) sk.width .N)
  have hstored := storedBytes_storeAt sk (s.readReg rn) (s.readReg rm)
    (((s.chargeCode .S).charge (s.readReg rn) lk.width .N).charge (s.readReg rn) sk.width .N)
  rw [swap, checked_of_allowed hregs, checkedPrefetch_of_noHazard hno]
  refine ⟨_, rfl, (writeReg_finish_done (s := s) ?_ ?_ rd _).1, hstored.congr ?_⟩
  · simpa using hpc
  · simpa using hcpsr
  · simp

/-- Settles O33: both forms are a swap behind their condition. -/
theorem swaps : Obligations.Swaps := by
  intro cond rn rd rm s hcond hregs
  exact ⟨fun hno => .conditional hcond rfl (swap_done .word .word hregs hno),
    fun hno => .conditional hcond rfl (swap_done .byte .byte hregs hno)⟩

/-! ## Thumb forms -/

/-- Settles O41: each form is a load at its address with no write-back, into a low register. -/
theorem thumbLoads : Obligations.ThumbLoads := by
  intro ro rb rd imm5 imm8 s loaded base off5 off8 odd half signedHalf indexed
  have done (k : LoadKind) {a v : Word} (hv : loadValue k s a = v) {i : Instr} (h : exec i s = loadFrom k (lo rd) a none s) :
      Completes i s (loaded v) := by
    obtain ⟨t, hnext, hwrote, hflags⟩ := loadFrom_done k (lo rd) a s
    obtain ⟨hrd, hpc⟩ := wroteReg_iff.mp hwrote
    exact ⟨t, h.trans hnext, (hrd (lo_ne_pc rd)).trans hv, hpc.trans (if_neg (lo_ne_pc rd)), hflags⟩
  have hscaled (k : LoadKind) (b : Word) {n : Nat} (imm : BitVec n) (sh : Nat) :
      loadFrom k (lo rd) (b + scaled imm sh) none s = loadFrom k (lo rd) (b + BitVec.ofNat 32 (2 ^ sh * imm.toNat)) none s := by
    rw [scaled_eq_mul]
  refine ⟨?ldrPc, ?ldr, ?ldrb, ?ldsb, ?ldrh, ?ldsh, ?ldrImm, ?ldrbImm, ?ldrhImm, ?ldrSp⟩
  case ldrPc => exact done .word rfl (hscaled .word (thumbPcBase s) imm8 2)
  case ldr => exact done .word rfl rfl
  case ldrb => exact done .byte rfl rfl
  case ldsb => exact done .signedByte rfl rfl
  case ldrh => exact done .half (loadValue_half s indexed) rfl
  case ldsh => exact done .signedHalf (loadValue_signedHalf s indexed) rfl
  case ldrImm => exact done .word rfl (hscaled .word base imm5 2)
  case ldrbImm => exact done .byte rfl (hscaled .byte base imm5 0)
  case ldrhImm => exact done .half (loadValue_half s _) (hscaled .half base imm5 1)
  case ldrSp => exact done .word rfl (hscaled .word (s.readReg 13) imm8 2)

/-- Settles O42: each form is a store at its address with no write-back, of a low register. -/
theorem thumbStores : Obligations.ThumbStores := by
  intro ro rb rd imm5 imm8 s stores base indexed off5
  have done (k : StoreKind) (a : Word) {i : Instr} (h : exec i s = storeTo k a (s.readReg (lo rd)) none s) : stores i k a := by
    intro hno
    obtain ⟨t, hnext, hstored, -, hnone⟩ := storeTo_done k a (s.readReg (lo rd)) none hno
    obtain ⟨hpc, hregs, hcpsr⟩ := hnone rfl
    exact ⟨t, h.trans hnext, hstored, hpc, hregs, hcpsr⟩
  have hscaled (k : StoreKind) (b : Word) {n : Nat} (imm : BitVec n) (sh : Nat) :
      storeTo k (b + scaled imm sh) (s.readReg (lo rd)) none s =
        storeTo k (b + BitVec.ofNat 32 (2 ^ sh * imm.toNat)) (s.readReg (lo rd)) none s := by rw [scaled_eq_mul]
  exact ⟨done .word _ rfl, done .byte _ rfl, done .half _ rfl, done .word _ (hscaled .word _ imm5 2),
    done .byte _ (hscaled .byte _ imm5 0), done .half _ (hscaled .half _ imm5 1), done .word _ (hscaled .word _ imm8 2)⟩

end Sys2Proof.Machine

/-! Block transfers (O30 to O32, O44). -/

namespace Sys2Proof.Machine

/-! ## Register lists -/

/-- The registers that an LDM loads before R15 (R342). -/
def lowRegs (list : BitVec 16) : List Reg := (regsOf list).filter fun r => r != 15

/-- R15 is the last register of a list (R340). -/
theorem regsOf_eq_lowRegs_append (list : BitVec 16) :
    regsOf list = lowRegs list ++ if list.getLsbD 15 then [15] else [] := by
  have hsplit : List.finRange 16 = (List.finRange 15).map Fin.castSucc ++ [15] := by decide
  have hlow : (regsOf list).filter (fun r => r != 15) =
      ((List.finRange 15).map Fin.castSucc).filter fun r => list.getLsbD r.val := by
    rw [regsOf, List.filter_filter, hsplit, List.filter_append]
    have hlast : ([15] : List Reg).filter (fun r => r != 15 && list.getLsbD r.val) = [] := rfl
    rw [hlast, List.append_nil]
    refine List.filter_congr fun r hr => ?_
    have hne : r ≠ 15 := by
      obtain ⟨j, -, rfl⟩ := List.mem_map.mp hr
      exact Fin.ne_of_lt j.isLt
    simp [hne]
  rw [lowRegs, hlow, regsOf, hsplit, List.filter_append]
  rw [List.filter_cons, List.filter_nil]
  rfl

theorem lowRegs_ne_pc {list : BitVec 16} {r : Reg} (hr : r ∈ lowRegs list) : r ≠ 15 := by
  simpa using (List.mem_filter.mp hr).2

theorem lowRegs_nodup (list : BitVec 16) : (lowRegs list).Nodup := (regsOf_nodup list).filter _

/-- A listed register other than R15 stands at the same place among the ones loaded first. -/
theorem lowRegs_getElem? {list : BitVec 16} {k : Nat} {r : Reg} (h : (regsOf list)[k]? = some r) (hr : r ≠ 15) :
    (lowRegs list)[k]? = some r := by
  rw [regsOf_eq_lowRegs_append] at h
  obtain hk | hk := Nat.lt_or_ge k (lowRegs list).length
  · rwa [List.getElem?_append_left hk] at h
  · rw [List.getElem?_append_right hk] at h
    have hmem := List.mem_of_getElem? h
    split at hmem
    · exact absurd (List.mem_singleton.mp hmem) hr
    · cases hmem

theorem regsOf_length_of_pc {list : BitVec 16} (h : list.getLsbD 15 = true) :
    (regsOf list).length - 1 = (lowRegs list).length := by
  rw [regsOf_eq_lowRegs_append, if_pos h, List.length_append, List.length_singleton, Nat.add_sub_cancel]

theorem mem_blockRegs {list : BitVec 16} {r : Reg} : r ∈ (blockRegs list).1 ↔ (effectiveList list).getLsbD r.val = true := by
  rw [blockRegs_eq]
  exact mem_regsOf

/-- A register read in some mode as another one of the User bank is that one (R51). -/
theorem phys_usr_injective (m : Mode) (a b : Reg) : phys a m = phys b .usr → a = b := by
  revert a b; cases m <;> decide

/-! ## Checks -/

/-- The checks of a block transfer whose list the core allows (R346). -/
theorem checkedBlock_listed {list : BitVec 16} {isReturn ub w notFirst : Bool} {rn : Reg} {s : State} {k : Word → Result}
    (hlist : list = 0 → s.config.emptyRlist = .arm7) :
    checkedBlock list isReturn ub w notFirst rn s k =
      s.checked (badUserBank isReturn ub w s) .userBankTransfer (s.checked notFirst .stmBaseNotFirst
        (if isReturn then s.withReturnPsr fun p => s.checked (rn = 15) .blockBasePC (k p)
        else s.checked (rn = 15) .blockBasePC (k 0))) := by
  refine if_neg ?_
  rintro ⟨hl, hf⟩
  rw [hlist hl] at hf
  cases hf

/-- The checks of a block transfer that the core allows: left are the SPSR of a return, and the base (R345, R346, R349). -/
theorem checkedBlock_pass {list : BitVec 16} {isReturn ub w notFirst : Bool} {rn : Reg} {s : State} {k : Word → Result}
    (hlist : list = 0 → s.config.emptyRlist = .arm7) (hbank : Allowed s (badUserBank isReturn ub w s))
    (hfirst : Allowed s notFirst) :
    checkedBlock list isReturn ub w notFirst rn s k =
      if isReturn then s.withReturnPsr fun p => s.checked (rn = 15) .blockBasePC (k p)
      else s.checked (rn = 15) .blockBasePC (k 0) := by
  rw [checkedBlock_listed hlist, checked_of_allowed hbank, checked_of_allowed hfirst]

/-! ## Loads -/

/-- The word of a block load at its address forced down (R341, R342). -/
theorem memRead32_blockWord (s : State) (a : Word) : s.memRead32 (alignWord a) = s.mem.le32 (alignWord a) :=
  memRead32_of_aligned s (alignWord_idem a)

theorem writeBase_cpsr (wb : Option (Reg × Word)) (s : State) : (writeBase wb s).cpsr = s.cpsr := by
  cases wb <;> simp [writeBase]

section BlockLoad
variable (p u w : Bool) (m : Mode) (rn : Reg) (list : BitVec 16) (s : State)

/-- The charges of a block load (R736). -/
def blockLoadCharged : State :=
  (State.chargeWords (regsOf (effectiveList list)).length (blockStart p u (s.readReg rn) (effectiveCount list)) .N
    (s.chargeCode .S)).internal 1

/-- The write-back of a block load: none where the base is listed (R343). -/
def blockLoadBase : Option (Reg × Word) :=
  if w && !(effectiveList list).getLsbD rn.val then some (rn, blockWriteback u (s.readReg rn) (effectiveCount list)) else none

/-- The state of a block load before it loads R15. -/
def blockLoadLow : State :=
  loadRegs m (blockStart p u (s.readReg rn) (effectiveCount list)) (lowRegs (effectiveList list))
    (writeBase (blockLoadBase u w rn list s) (blockLoadCharged p u rn list s))

/-- The word of a block load for R15. -/
def blockLoadPc : Word :=
  s.memRead32 (alignWord (blockStart p u (s.readReg rn) (effectiveCount list) +
    BitVec.ofNat 32 (4 * (lowRegs (effectiveList list)).length)))

variable {p u w m rn list s}

theorem blockLoadCharged_fields : (blockLoadCharged p u rn list s).pc = s.pc ∧ (blockLoadCharged p u rn list s).cpsr = s.cpsr ∧
    (blockLoadCharged p u rn list s).mem = s.mem := by simp [blockLoadCharged]

theorem blockLoadLow_cpsr : (blockLoadLow p u w m rn list s).cpsr = s.cpsr := by
  obtain ⟨-, hcpsr, -⟩ := blockLoadCharged_fields (p := p) (u := u) (rn := rn) (list := list) (s := s)
  obtain ⟨hkept, -⟩ := loadRegs_fields m (blockStart p u (s.readReg rn) (effectiveCount list)) (lowRegs (effectiveList list))
    (writeBase (blockLoadBase u w rn list s) (blockLoadCharged p u rn list s))
  exact (hkept.trans (writeBase_cpsr _ _)).trans hcpsr

/-- A base of R15 that is written back is a branch, which the loads of the other registers keep (R249). -/
theorem blockLoadLow_pc (hpc : (effectiveList list).getLsbD 15 = false) : (blockLoadLow p u w m rn list s).pc =
    if w = true ∧ rn = 15 then s.alignPc (blockWriteback u (s.readReg rn) (effectiveCount list)) else s.pc := by
  obtain ⟨hcpc, hcpsr, -⟩ := blockLoadCharged_fields (p := p) (u := u) (rn := rn) (list := list) (s := s)
  rw [blockLoadLow, loadRegs_pc _ _ _ _ fun r hr => lowRegs_ne_pc hr, blockLoadBase]
  by_cases hb : w = true ∧ rn = 15
  · obtain ⟨rfl, rfl⟩ := hb
    rw [if_pos (by simpa using hpc), if_pos ⟨rfl, rfl⟩, writeBase, pc_writeReg_eq_ite, if_pos rfl, State.alignPc_congr hcpsr]
  · rw [if_neg hb]
    split
    · next hw =>
      have hrn : rn ≠ 15 := fun h => hb ⟨(Bool.and_eq_true_iff.mp hw).1, h⟩
      exact (State.pc_writeReg _ _ hrn).trans hcpc
    · exact hcpc

/-- What a block load leaves in the registers, up to what it does with R15 (R340 to R343, R350). -/
theorem blockLoaded_of_regs {t : State} (hm : m = s.mode ∨ m = .usr) (ht : t.regs = (blockLoadLow p u w m rn list s).regs) :
    BlockLoaded p u w m rn list s t := by
  obtain ⟨-, hcpsr, hmem⟩ := blockLoadCharged_fields (p := p) (u := u) (rn := rn) (list := list) (s := s)
  have hread {r : Reg} (m' : Mode) (hr : r ≠ 15) : t.readBank m' r = (blockLoadLow p u w m rn list s).readPhys (phys r m') :=
    State.readPhys_congr ht (by simpa using hr)
  simp only [BlockLoaded, blockRegs_eq, blockTable_eq]
  constructor
  · intro k r hk hr
    obtain ⟨hlt, rfl⟩ := List.getElem?_eq_some_iff.mp (lowRegs_getElem? hk hr)
    rw [hread m hr, blockLoadLow, loadRegs_loaded _ _ _ _ (lowRegs_nodup _) (fun r hr => lowRegs_ne_pc hr) hlt,
      memRead32_blockWord, writeBase_mem, hmem]
    rfl
  · intro hw hnot hrn
    have hnot' : (effectiveList list).getLsbD rn.val = false := by simpa [mem_regsOf] using hnot
    have hkept : phys rn s.mode ∉ (lowRegs (effectiveList list)).map fun r => phys r m := by
      intro hin
      obtain ⟨r, hr, he⟩ := List.mem_map.mp hin
      have hreq : r = rn := by
        rcases hm with rfl | rfl
        · exact (phys_injective _ _ _).mp he
        · exact (phys_usr_injective _ _ _ he.symm).symm
      exact hnot (hreq ▸ List.mem_of_mem_filter hr)
    rw [hread s.mode hrn, blockLoadLow, loadRegs_kept _ _ _ _ (by simpa using hrn) hkept, blockLoadBase,
      if_pos (by rw [hw, hnot']; rfl), writeBase]
    have hmode :
        ((blockLoadCharged p u rn list s).writeReg rn (blockWriteback u (s.readReg rn) (effectiveCount list))).mode = s.mode :=
      State.mode_congr (congrArg psrM ((State.writeReg_cpsr _ _ _).trans hcpsr))
    rw [← hmode]
    exact (State.readReg_writeReg _ rn rn _ hrn).trans (if_pos rfl)

theorem blockLoadPc_eq (hpc : (effectiveList list).getLsbD 15 = true) :
    blockLoadPc p u rn list s = blockPcWord p u rn list s := by
  simp only [blockPcWord, blockRegs_eq, blockTable_eq]
  rw [regsOf_length_of_pc hpc]
  exact memRead32_blockWord s _

/-- A block load by its parts: the charges and the registers below R15, then R15. -/
theorem blockLoad_eq (ub : Bool) : blockLoad p u ub w rn list s =
    checkedBlock list (ub && (effectiveList list).getLsbD 15) ub w false rn s fun psr =>
      let t := blockLoadLow p u w (if ub && !(effectiveList list).getLsbD 15 then .usr else s.mode) rn list s
      let v := blockLoadPc p u rn list s
      .next ((if !(effectiveList list).getLsbD 15 then t else if ub then t.returnFromException psr v else t.writePc v).finish
        ((effectiveList list).getLsbD 15 || branchesBase (blockLoadBase u w rn list s))) := rfl

/-- A block load of R15 without a return from exception (R342, R347). -/
theorem blockLoad_branch (hpc : (effectiveList list).getLsbD 15 = true) : blockLoad p u false w rn list s =
    checkedBlock list false false w false rn s fun _ =>
      .next (((blockLoadLow p u w s.mode rn list s).writePc (blockLoadPc p u rn list s)).finish true) := by
  rw [blockLoad_eq, hpc]; rfl

/-- A block load of R15 with a return from exception (R352). -/
theorem blockLoad_returns (hpc : (effectiveList list).getLsbD 15 = true) : blockLoad p u true w rn list s =
    checkedBlock list true true w false rn s fun psr =>
      .next (((blockLoadLow p u w s.mode rn list s).returnFromException psr (blockLoadPc p u rn list s)).finish true) := by
  rw [blockLoad_eq, hpc]; rfl

/-- A block load without R15 (R342, R350). -/
theorem blockLoad_below (hpc : (effectiveList list).getLsbD 15 = false) (ub : Bool) : blockLoad p u ub w rn list s =
    checkedBlock list false ub w false rn s fun _ =>
      .next ((blockLoadLow p u w (if ub then .usr else s.mode) rn list s).finish
        (branchesBase (blockLoadBase u w rn list s))) := by
  rw [blockLoad_eq, hpc]; cases ub <;> rfl

/-- A block load that does not list R15 branches when it writes back a base of R15. -/
theorem branchesBase_blockLoadBase (hpc : (effectiveList list).getLsbD 15 = false) :
    branchesBase (blockLoadBase u w rn list s) = true ↔ w = true ∧ rn = 15 := by
  rw [blockLoadBase]
  split
  · next hw => simpa [branchesBase] using fun _ => (Bool.and_eq_true_iff.mp hw).1
  · next hw =>
    refine ⟨fun h => absurd h Bool.false_ne_true, ?_⟩
    rintro ⟨rfl, rfl⟩
    exact absurd (by simpa using hpc) hw

end BlockLoad

/-- LDM without a return from exception, R15 last as a branch (R340 to R343, R346, R347, R349, R350). -/
theorem blockLoad_done {p u ub w : Bool} {rn : Reg} {list : BitVec 16} {s : State}
    (hlist : list = 0 → s.config.emptyRlist = .arm7) (hbase : Allowed s (rn = 15)) (hret : ub = true → 15 ∉ (blockRegs list).1)
    (hbank : Allowed s (ub && (s.mode == .usr || s.mode == .sys || w))) :
    ∃ t, blockLoad p u ub w rn list s = .next t ∧ BlockLoaded p u w (if ub then .usr else s.mode) rn list s t ∧ t.cpsr = s.cpsr ∧
      t.pc =
        if 15 ∈ (blockRegs list).1 then s.alignPc (blockPcWord p u rn list s)
        else if w ∧ rn = 15 then s.alignPc (blockTable p u (s.readReg rn) (blockRegs list).2).2
        else s.pc + s.ilen := by
  have hbank' : Allowed s (badUserBank false ub w s) := fun hs => by simpa [badUserBank] using hbank hs
  have hpcIff : 15 ∈ (blockRegs list).1 ↔ (effectiveList list).getLsbD 15 = true := mem_blockRegs
  cases hpc : (effectiveList list).getLsbD 15 with
  | true =>
    obtain rfl : ub = false := Bool.eq_false_iff.mpr fun h => hret h (hpcIff.mpr hpc)
    rw [blockLoad_branch hpc, checkedBlock_pass hlist hbank' fun _ => rfl, if_neg Bool.false_ne_true, checked_of_allowed hbase]
    refine ⟨_, rfl, blockLoaded_of_regs (.inl rfl) (State.finish_regs _ _), (State.finish_cpsr _ _).trans blockLoadLow_cpsr, ?_⟩
    rw [if_pos (hpcIff.mpr hpc), ← blockLoadPc_eq hpc]
    exact State.alignPc_congr blockLoadLow_cpsr _
  | false =>
    have hm : (if ub then Mode.usr else s.mode) = s.mode ∨ (if ub then Mode.usr else s.mode) = .usr := by
      cases ub
      · exact .inl rfl
      · exact .inr rfl
    have hlow := blockLoadLow_pc (p := p) (u := u) (w := w) (m := if ub then .usr else s.mode) (rn := rn) (s := s) hpc
    rw [blockLoad_below hpc, checkedBlock_pass hlist hbank' fun _ => rfl, if_neg Bool.false_ne_true, checked_of_allowed hbase]
    refine ⟨_, rfl, blockLoaded_of_regs hm (State.finish_regs _ _), (State.finish_cpsr _ _).trans blockLoadLow_cpsr, ?_⟩
    rw [if_neg fun h => Bool.false_ne_true (hpc.symm.trans (hpcIff.mp h)), blockTable_eq, blockRegs_eq, State.finish_pc, hlow,
      State.ilen_congr blockLoadLow_cpsr]
    by_cases hb : w = true ∧ rn = 15
    · rw [if_pos hb, if_pos hb, if_pos ((branchesBase_blockLoadBase hpc).mpr hb)]
    · rw [if_neg hb, if_neg hb, if_neg (mt (branchesBase_blockLoadBase hpc).mp hb)]

/-- LDM with S = 1 and R15 listed: the current bank, then the return from the exception (R352, assumption 10). -/
theorem blockLoad_return {p u w : Bool} {rn : Reg} {list : BitVec 16} {s : State} {psr : Word} {m : Mode}
    (hlist : list = 0 → s.config.emptyRlist = .arm7) (hbase : Allowed s (rn = 15)) (hpc : 15 ∈ (blockRegs list).1)
    (hspsr : s.spsr = some psr) (hm : Mode.ofBits? (psrM psr) = some m) :
    ∃ t, blockLoad p u true w rn list s = .next t ∧ BlockLoaded p u w s.mode rn list s t ∧ t.cpsr = psr ∧
      t.pc =
        if psr.getLsbD 5 then blockPcWord p u rn list s &&& 0xFFFFFFFE#32 else blockPcWord p u rn list s &&& 0xFFFFFFFC#32 := by
  have hpc' : (effectiveList list).getLsbD 15 = true := mem_blockRegs.mp hpc
  have hp : psr &&& psrImplemented = psr := implemented_of_reserved (spsr_reserved hspsr)
  rw [blockLoad_returns hpc', checkedBlock_pass hlist (fun _ => by simp [badUserBank]) fun _ => rfl, if_pos rfl,
    withReturnPsr_pass hspsr hm, checked_of_allowed hbase]
  refine ⟨_, rfl, blockLoaded_of_regs (.inl rfl) (State.finish_regs _ _), (State.finish_cpsr _ _).trans hp, ?_⟩
  rw [← blockLoadPc_eq hpc', State.finish_pc, if_pos rfl]
  simp only [State.returnFromException, State.writePc_pc, State.alignPc, State.thumb, State.writeCpsr_cpsr, hp]
  rfl

theorem blockLoad_invalidMode {p u w : Bool} {rn : Reg} {list : BitVec 16} {s : State} {psr : Word}
    (hlist : list = 0 → s.config.emptyRlist = .arm7) (hpc : 15 ∈ (blockRegs list).1) (hspsr : s.spsr = some psr)
    (hm : Mode.ofBits? (psrM psr) = none) : blockLoad p u true w rn list s = .fault (.invalidMode (psrM psr)) := by
  have hpc' : (effectiveList list).getLsbD 15 = true := mem_blockRegs.mp hpc
  rw [blockLoad_returns hpc', checkedBlock_pass hlist (fun _ => by simp [badUserBank]) fun _ => rfl, if_pos rfl]
  simp [State.withReturnPsr, hspsr, hm]

/-- Settles O30: with a true condition each addressing mode is the block load above. -/
theorem blockLoads : Obligations.BlockLoads := by
  intro p u cond ub w rn list s hcond hlist hbase hret hbank
  obtain ⟨t, hnext, hloaded, hcpsr, hpc⟩ := blockLoad_done (p := p) (u := u) hlist hbase hret hbank
  exact .conditional hcond (exec_ldmOf ..) ⟨t, hnext, hloaded, flags_congr hcpsr, hpc⟩

/-- Settles O31: the SPSR names a mode or not, and the block load returns or stops. -/
theorem blockLoadReturns : Obligations.BlockLoadReturns := by
  intro p u cond w rn list s psr hcond hlist hpc hspsr
  refine ⟨fun hm => ?_, fun hm hbase => ?_⟩
  · rw [exec_ldmOf, conditional_pass hcond]
    exact blockLoad_invalidMode hlist hpc hspsr hm
  · obtain ⟨m, hm⟩ := Option.isSome_iff_exists.mp hm
    exact .conditional hcond (exec_ldmOf ..) (blockLoad_return hlist hbase hpc hspsr hm)

/-! ## Stores -/

theorem toNat_alignWord (a : Word) : (alignWord a).toNat = a.toNat - a.toNat % 4 := by
  have hsplit : alignWord a + (a &&& 3#32) = a := by
    have hdisjoint : alignWord a &&& (a &&& 3#32) = 0#32 := by
      rw [alignWord, BitVec.and_assoc, ← BitVec.and_assoc 0xFFFFFFFC#32, BitVec.and_comm 0xFFFFFFFC#32, BitVec.and_assoc a]
      simp
    rw [BitVec.add_eq_or_of_and_eq_zero _ _ hdisjoint, alignWord, ← BitVec.and_or_distrib_left]
    exact BitVec.and_allOnes
  have hlow : (a &&& 3#32).toNat = a.toNat % 4 := by
    rw [BitVec.toNat_and]
    exact Nat.and_two_pow_sub_one_eq_mod _ 2
  have hmod := alignWord_mod a
  have hsum := congrArg BitVec.toNat hsplit
  rw [BitVec.toNat_add, hlow] at hsum
  omega

/-- Forcing an address down to a word commutes with the step to a later word (R341). -/
theorem alignWord_add_words (a : Word) (n : Nat) :
    alignWord (a + BitVec.ofNat 32 (4 * n)) = alignWord a + BitVec.ofNat 32 (4 * n) := by
  apply BitVec.eq_of_toNat_eq
  simp only [toNat_alignWord, BitVec.toNat_add, BitVec.toNat_ofNat]
  omega

/-- The words a block store goes on to write leave the ones before them alone: it moves at most 16. -/
theorem later_words_disjoint (a : Word) {j i : Nat} (hj : j < 4) (hi : i < 15) :
    ¬ (alignWord a + BitVec.ofNat 32 j - alignWord (a + 4 + BitVec.ofNat 32 (4 * i))).toNat < 4 := by
  rw [offset_succ, alignWord_add_words]
  bv_omega

theorem storeRegs_mapped (val : Reg → Word) (a : Word) (c : AccessClass) (l : List Reg) (t : State) (b : Word) :
    (storeRegs val a c l t).mem.mapped b = t.mem.mapped b := by
  induction l generalizing a c t with
  | nil => rfl
  | cons r rest ih => exact (ih _ _ _).trans (State.memWrite32_mapped _ _ _ _)

/-- The k-th listed register stands at the k-th address (R340, R344). -/
theorem storedBytes_storeRegs (val : Reg → Word) (a : Word) (c : AccessClass) {l : List Reg} (hlen : l.length ≤ 16) (t : State)
    {k : Nat} {r : Reg} (hk : l[k]? = some r) : StoredBytes (storeRegs val a c l t) (blockWord a k) 4 (val r) := by
  induction l generalizing a c t k with
  | nil => cases hk
  | cons x rest ih =>
    have hlen' : rest.length < 16 := hlen
    cases k with
    | zero =>
      obtain rfl := Option.some.inj hk
      have hfirst := storedBytes_memWrite32 (alignWord a) (val x) (t.charge (alignWord a) .w32 c)
      rw [alignWord_idem] at hfirst
      rw [blockWord, offset_zero]
      intro j hj
      rw [storeRegs, storeRegs_mapped]
      exact (storeRegs_kept val (a + 4) .S rest _ _ fun i hi => later_words_disjoint a hj (by omega)).trans (hfirst j hj)
    | succ k =>
      have hrest := ih (a + 4) .S (Nat.le_of_lt hlen') ((t.charge (alignWord a) .w32 c).memWrite32 (alignWord a) (val x)) hk
      rwa [blockWord, offset_succ] at hrest

/-- The base that an STM may not list, in its two spellings (R345). -/
theorem baseNotFirst_eq (w : Bool) (rn : Reg) (list : BitVec 16) :
    baseNotFirst w rn (effectiveList list) = baseNotLowest w rn list := by
  rw [baseNotFirst, baseNotLowest, blockRegs_eq]
  by_cases hr : rn ∈ regsOf (effectiveList list)
  · rw [notLowest_eq hr, mem_regsOf.mp hr, List.contains_iff_mem.mpr hr]
  · have hnot : (effectiveList list).getLsbD rn.val = false := Bool.eq_false_iff.mpr (mt mem_regsOf.mpr hr)
    have hnot' : (regsOf (effectiveList list)).contains rn = false := Bool.eq_false_iff.mpr (mt List.contains_iff_mem.mp hr)
    rw [hnot, hnot', Bool.and_false, Bool.false_and, Bool.false_and]

/-- A block store whose words are no prefetch hazard passes that check (R720). -/
theorem blockInPrefetch_of_allowed {p u : Bool} {rn : Reg} {list : BitVec 16} {s : State} (h : BlockStoreAllowed p u rn list s) :
    ¬ (s.config.prefetchHazard = .fault ∧
      blockInPrefetch s (blockStart p u (s.readReg rn) (effectiveCount list)) (regsOf (effectiveList list)).length = true) := by
  rintro ⟨hfault, hhit⟩
  obtain ⟨k, hk, hin⟩ := List.any_eq_true.mp hhit
  simp only [BlockStoreAllowed, blockRegs_eq, blockTable_eq] at h
  exact Bool.false_ne_true ((h k (List.mem_range.mp hk) hfault).symm.trans hin)

section BlockStore
variable (p u ub w : Bool) (rn : Reg) (list : BitVec 16) (s : State)

/-- The write-back of a block store (R344). -/
def blockStoreBase : Option (Reg × Word) := if w then some (rn, blockWriteback u (s.readReg rn) (effectiveCount list)) else none

/-- The state of a block store before its write-back. -/
def blockStoreWords : State :=
  storeRegs (blockStoreValue ub w rn (effectiveList list) (blockWriteback u (s.readReg rn) (effectiveCount list)) s)
    (blockStart p u (s.readReg rn) (effectiveCount list)) .N (regsOf (effectiveList list)) (s.chargeCode .N)

variable {p u ub w rn list s}

/-- A block store by its parts: the checks, the words, the write-back. -/
theorem blockStore_eq : blockStore p u ub w rn list s =
    checkedBlock list false ub w (baseNotFirst w rn (effectiveList list)) rn s fun _ =>
      s.checkedPrefetch (blockInPrefetch s (blockStart p u (s.readReg rn) (effectiveCount list))
          (regsOf (effectiveList list)).length)
        (.next ((writeBase (blockStoreBase u w rn list s) (blockStoreWords p u ub w rn list s)).finish
          (branchesBase (blockStoreBase u w rn list s)))) := rfl

theorem blockStoreWords_fields :
    (blockStoreWords p u ub w rn list s).pc = s.pc ∧ (blockStoreWords p u ub w rn list s).cpsr = s.cpsr := by
  obtain ⟨-, hpc, hcpsr, -⟩ := storeRegs_fields
    (blockStoreValue ub w rn (effectiveList list) (blockWriteback u (s.readReg rn) (effectiveCount list)) s)
    (blockStart p u (s.readReg rn) (effectiveCount list)) .N (regsOf (effectiveList list)) (s.chargeCode .N)
  exact ⟨hpc, hcpsr⟩

/-- Each listed register stands at its word (R340, R344, R345, R348, R350). -/
theorem storedBytes_blockStoreWords {k : Nat} {r : Reg} (hk : (regsOf (effectiveList list))[k]? = some r) :
    StoredBytes (blockStoreWords p u ub w rn list s) (blockWord (blockStart p u (s.readReg rn) (effectiveCount list)) k) 4
      (blockValue p u ub w rn list s r) := by
  rw [← blockStoreValue_eq (List.mem_of_getElem? hk)]
  exact storedBytes_storeRegs _ _ .N (regsOf_length_le _) (s.chargeCode .N) hk

end BlockStore

/-- STM in an addressing mode: the words, then the write-back (R340, R344, R345, R348 to R350). -/
theorem blockStore_done {p u ub w : Bool} {rn : Reg} {list : BitVec 16} {s : State}
    (hlist : list = 0 → s.config.emptyRlist = .arm7) (hbase : Allowed s (rn = 15)) (hfirst : Allowed s (baseNotLowest w rn list))
    (hbank : Allowed s (ub && (s.mode == .usr || s.mode == .sys || w))) (hno : BlockStoreAllowed p u rn list s) :
    ∃ t, blockStore p u ub w rn list s = .next t ∧ BlockStored p u ub w rn list s t ∧ SameFlags s t := by
  have hbank' : Allowed s (badUserBank false ub w s) := fun hs => by simpa [badUserBank] using hbank hs
  have hfirst' : Allowed s (baseNotFirst w rn (effectiveList list)) := fun hs => (baseNotFirst_eq w rn list).trans (hfirst hs)
  obtain ⟨hpc, hcpsr⟩ := blockStoreWords_fields (p := p) (u := u) (ub := ub) (w := w) (rn := rn) (list := list) (s := s)
  obtain ⟨hwrote, hnone, hflags⟩ := writeBase_finish_done (s := s) hpc hcpsr (blockStoreBase u w rn list s)
  rw [blockStore_eq, checkedBlock_pass hlist hbank' hfirst', if_neg Bool.false_ne_true, checked_of_allowed hbase,
    checkedPrefetch_pass (blockInPrefetch_of_allowed hno)]
  refine ⟨_, rfl, ?_, hflags⟩
  simp only [BlockStored, blockRegs_eq, blockTable_eq]
  refine ⟨fun k r hk => (storedBytes_blockStoreWords hk).congr ?_, ?_⟩
  · rw [State.finish_mem, writeBase_mem]
  · by_cases hw : w = true
    · obtain ⟨hrn, hpc'⟩ := wroteReg_iff.mp (hwrote _ _ (if_pos hw))
      exact ⟨fun _ => hrn, hpc'.trans (if_congr (and_iff_right hw).symm rfl rfl)⟩
    · exact ⟨fun h => absurd h hw, (hnone (if_neg hw)).trans (if_neg fun h => hw h.1).symm⟩

/-- The four STM are one block store (R340). -/
theorem exec_stmOf (p u : Bool) (cond : Cond) (ub w : Bool) (rn : Reg) (list : BitVec 16) (s : State) :
    exec (stmOf p u cond ub w rn list) s = conditional cond s (blockStore p u ub w rn list s) := by
  cases p <;> cases u <;> rfl

/-- Settles O32: with a true condition each addressing mode is the block store above. -/
theorem blockStores : Obligations.BlockStores := by
  intro p u cond ub w rn list s hcond hlist hbase hfirst hbank hno
  exact .conditional hcond (exec_stmOf ..) (blockStore_done hlist hbase hfirst hbank hno)

/-! ## The Thumb block transfers -/

/-- A base that is not listed is no listed base that is not the lowest, also where the list is empty (R345, R346). -/
theorem baseNotLowest_of_not_listed (w : Bool) {rn : Reg} {list : BitVec 16} (hrn : rn ≠ 15) (h : list.getLsbD rn.val = false) :
    baseNotLowest w rn list = false := by
  have hempty : ∀ r : Reg, r ≠ 15 → (0x8000#16).getLsbD r.val = false := by decide
  have hnot : (effectiveList list).getLsbD rn.val = false := by
    rw [effectiveList]
    split
    · exact hempty rn hrn
    · exact h
  rw [← baseNotFirst_eq, baseNotFirst, hnot, Bool.and_false, Bool.false_and]

/-- PUSH never lists its base (R473). -/
theorem baseNotLowest_push (r : Bool) (list : BitVec 8) :
    baseNotLowest true 13 ((if r then 0x4000#16 else 0) ||| list.zeroExtend 16) = false :=
  baseNotLowest_of_not_listed true (by decide) (by cases r <;> simp [BitVec.getLsbD_of_ge])

/-- Settles O44: each is a block transfer with write-back of a base that is not R15, in the current bank. -/
theorem thumbBlocks : Obligations.ThumbBlocks := by
  intro r rb list s pushed popped low loaded
  have load (rn : Reg) (hrn : rn ≠ 15) (l : BitVec 16) (hlist : l = 0 → s.config.emptyRlist = .arm7) {i : Instr}
      (hexec : exec i s = blockLoad false true false true rn l s) : Completes i s (loaded rn l) := by
    obtain ⟨t, hnext, hloaded, hcpsr, hpc⟩ := blockLoad_done (p := false) (u := true) (ub := false) (w := true) hlist
      (fun _ => decide_eq_false hrn) (fun h => absurd h Bool.false_ne_true) fun _ => rfl
    refine ⟨t, hexec.trans hnext, hloaded, hcpsr, hpc.trans (if_congr Iff.rfl rfl ?_)⟩
    exact if_neg fun h => hrn h.2
  refine ⟨fun hlist hno => ?_, fun hlist hfirst hno => ?_, fun hlist => ?_, fun hlist => ?_⟩
  · obtain ⟨t, hnext, hdone⟩ := blockStore_done (p := true) (u := false) (ub := false) (w := true) hlist (fun _ => rfl)
      (fun _ => baseNotLowest_push r list) (fun _ => rfl) hno
    exact ⟨t, (congrArg (blockStore true false false true 13 · s) (stackList_push r list)).trans hnext, hdone⟩
  · exact blockStore_done hlist (fun _ => decide_eq_false (lo_ne_pc rb)) hfirst (fun _ => rfl) hno
  · exact load 13 (by decide) popped hlist (congrArg (blockLoad false true false true 13 · s) (stackList_pop r list))
  · exact load (lo rb) (lo_ne_pc rb) low hlist rfl

end Sys2Proof.Machine

/-! The stops of the parameters: UNPREDICTABLE registers, empty lists and prefetch hazards (O58, O59). -/

namespace Sys2Proof.Machine

/-! ## UNPREDICTABLE registers -/

/-- An instruction whose condition holds ends with the fault of its body (R221). -/
theorem exec_fault_of_conditional {i : Instr} {cond : Cond} {s : State} {body : Result} {f : Fault}
    (hcond : s.condPasses cond = true) (hexec : exec i s = conditional cond s body) (hbody : body = .fault f) :
    exec i s = .fault f := by
  rw [hexec, conditional_pass hcond, hbody]

/-- A check that finds nothing goes on to the stop after it. -/
theorem checked_fault {s : State} {bad : Bool} {c : UnpredictableCase} {k : Result} {f : Fault} (hbad : bad = false)
    (hk : k = .fault f) : s.checked bad c k = .fault f := (checked_of_allowed fun _ => hbad).trans hk

/-- A transfer of the User bank in a mode that has no other, or with write-back (R349). -/
theorem badUserBank_eq_true {s : State} {w : Bool} (h : s.mode = .usr ∨ s.mode = .sys ∨ w = true) :
    badUserBank false true w s = true := by
  rcases h with h | h | h <;> simp [badUserBank, h]

/-- A transfer that R349 allows passes its check. -/
theorem badUserBank_eq_false {s : State} {ub w : Bool} (h : ub = true → s.mode ≠ .usr ∧ s.mode ≠ .sys ∧ w = false) :
    badUserBank false ub w s = false := by
  cases ub with
  | false => rfl
  | true =>
    obtain ⟨husr, hsys, rfl⟩ := h rfl
    simp [badUserBank, husr, hsys]

section Strict
variable {s : State} (hs : s.config.strictUnpredictable = true)
include hs

theorem moveFromPsr_toPC (spsr : Bool) (hspsr : spsr = true → s.spsr.isSome = true) :
    moveFromPsr spsr 15 s = .fault (.unpredictable .mrsToPC) := by
  rw [moveFromPsr]
  cases spsr with
  | false => exact checked_stop hs rfl
  | true =>
    obtain ⟨p, hp⟩ := Option.isSome_iff_exists.mp (hspsr rfl)
    rw [hp]
    exact checked_stop hs rfl

theorem moveToPsr_fromPC (spsr : Bool) (mask : PsrMask) (v : Word) (hspsr : spsr = true → s.spsr.isSome = true) :
    moveToPsr spsr mask true v s = .fault (.unpredictable .msrFromPC) := by
  rw [moveToPsr]
  cases spsr with
  | false => exact checked_stop hs rfl
  | true =>
    obtain ⟨p, hp⟩ := Option.isSome_iff_exists.mp (hspsr rfl)
    rw [if_pos rfl, moveToSpsr, hp]
    exact checked_stop hs rfl

/-! ### Block transfers -/

variable {p u ub w : Bool} {rn : Reg} {list : BitVec 16}

/-- An STM of a listed base that is not the lowest; its list is not empty (R345). -/
theorem blockStore_baseNotFirst (h : baseNotLowest w rn list = true) :
    blockStore p u false w rn list s = .fault (.unpredictable .stmBaseNotFirst) := by
  have hempty : ∀ (w : Bool) (rn : Reg), baseNotLowest w rn 0 = false := by decide
  have hlist : list = 0 → s.config.emptyRlist = .arm7 := by
    rintro rfl
    exact absurd ((hempty w rn).symm.trans h) Bool.false_ne_true
  rw [blockStore_eq, checkedBlock_listed hlist, baseNotFirst_eq]
  exact checked_fault rfl (checked_stop hs h)

theorem blockStore_userBank (hlist : list = 0 → s.config.emptyRlist = .arm7) (h : s.mode = .usr ∨ s.mode = .sys ∨ w = true) :
    blockStore p u true w rn list s = .fault (.unpredictable .userBankTransfer) := by
  rw [blockStore_eq, checkedBlock_listed hlist]
  exact checked_stop hs (badUserBank_eq_true h)

/-- An LDM that is no return from exception (R349). -/
theorem blockLoad_userBank (hlist : list = 0 → s.config.emptyRlist = .arm7) (h : s.mode = .usr ∨ s.mode = .sys ∨ w = true)
    (hpc : 15 ∉ (blockRegs list).1) : blockLoad p u true w rn list s = .fault (.unpredictable .userBankTransfer) := by
  rw [blockLoad_below (Bool.eq_false_iff.mpr (mt (mem_blockRegs (r := 15)).mpr hpc)), checkedBlock_listed hlist]
  exact checked_stop hs (badUserBank_eq_true h)

theorem blockStore_basePC (hlist : list = 0 → s.config.emptyRlist = .arm7)
    (hbank : ub = true → s.mode ≠ .usr ∧ s.mode ≠ .sys ∧ w = false) (hfirst : baseNotLowest w 15 list = false) :
    blockStore p u ub w 15 list s = .fault (.unpredictable .blockBasePC) := by
  rw [blockStore_eq, checkedBlock_listed hlist, baseNotFirst_eq]
  exact checked_fault (badUserBank_eq_false hbank) (checked_fault hfirst (checked_stop hs rfl))

theorem blockLoad_basePC (hlist : list = 0 → s.config.emptyRlist = .arm7)
    (hbank : ub = true → s.mode ≠ .usr ∧ s.mode ≠ .sys ∧ w = false) (hpc : ub = true → 15 ∉ (blockRegs list).1) :
    blockLoad p u ub w 15 list s = .fault (.unpredictable .blockBasePC) := by
  have hreturn : (ub && (effectiveList list).getLsbD 15) = false := by
    cases ub with
    | false => rfl
    | true => exact Bool.eq_false_iff.mpr (mt (mem_blockRegs (r := 15)).mpr (hpc rfl))
  rw [blockLoad_eq, checkedBlock_listed hlist, hreturn]
  exact checked_fault (badUserBank_eq_false hbank) (checked_fault rfl (checked_stop hs rfl))

/-- An LDM that returns from an exception checks its base last (R352). -/
theorem blockLoad_return_basePC {psr : Word} {m : Mode} (hlist : list = 0 → s.config.emptyRlist = .arm7)
    (hpc : 15 ∈ (blockRegs list).1) (hspsr : s.spsr = some psr) (hm : Mode.ofBits? (psrM psr) = some m) :
    blockLoad p u true w 15 list s = .fault (.unpredictable .blockBasePC) := by
  rw [blockLoad_returns (mem_blockRegs.mp hpc), checkedBlock_listed hlist, if_pos rfl, withReturnPsr_pass hspsr hm]
  exact checked_fault rfl (checked_fault rfl (checked_stop hs rfl))

end Strict

/-- Settles O58: behind a true condition each instruction runs its checks in their order, and the one named is the first that
finds something. -/
theorem strictStops : Obligations.StrictStops := by
  intro cond s hcond hs stops
  have stop {i : Instr} {bad : Bool} {c : UnpredictableCase} {k : Result} (hbad : bad = true)
      (hexec : exec i s = conditional cond s (s.checked bad c k)) : exec i s = .fault (.unpredictable c) :=
    exec_fault_of_conditional hcond hexec (checked_stop hs hbad)
  have stop₂ {i : Instr} {ok bad : Bool} {c' c : UnpredictableCase} {k : Result} (hok : ok = false) (hbad : bad = true)
      (hexec : exec i s = conditional cond s (s.checked ok c' (s.checked bad c k))) : exec i s = .fault (.unpredictable c) :=
    exec_fault_of_conditional hcond hexec (checked_fault hok (checked_stop hs hbad))
  have stop₃ {i : Instr} {ok ok' bad : Bool} {c'' c' c : UnpredictableCase} {k : Result} (hok : ok = false) (hok' : ok' = false)
      (hbad : bad = true) (hexec : exec i s = conditional cond s (s.checked ok c'' (s.checked ok' c' (s.checked bad c k)))) :
      exec i s = .fault (.unpredictable c) :=
    exec_fault_of_conditional hcond hexec (checked_fault hok (checked_fault hok' (checked_stop hs hbad)))
  have hbackT : (writesBack false true && decide ((15 : Reg) = 15)) = true := rfl
  have hback {p w : Bool} (h : p = false ∨ w = true) : (writesBack p w && decide ((15 : Reg) = 15)) = true := by
    rcases h with rfl | rfl
    · rfl
    · cases p <;> rfl
  simp only [stops, List.forall_mem_cons, List.not_mem_nil, false_imp_iff, implies_true, and_true]
  refine ⟨?rsIsPC, ?mrs, ?msr, ?spsr, ?mul, ?mla, ?mulLong, ?rmIsPC, ?backImm, ?backReg, ?bytePC, ?halfwordPC, ?notFirst,
    ?userBank, ?basePC, ?returnBasePC, ?swap, ?tMul, ?tStmia, ?tHi⟩
  case rsIsPC => exact fun op sf rn rd ty rm => stop rfl (exec_dpShreg ..)
  case mrs => exact exec_fault_of_conditional hcond rfl (moveFromPsr_toPC hs false fun h => absurd h Bool.false_ne_true)
  case msr =>
    exact fun mask => exec_fault_of_conditional hcond rfl (moveToPsr_fromPC hs false mask _ fun h => absurd h Bool.false_ne_true)
  case spsr =>
    intro hspsr
    exact ⟨exec_fault_of_conditional hcond rfl (moveFromPsr_toPC hs true fun _ => hspsr),
      fun mask => exec_fault_of_conditional hcond rfl (moveToPsr_fromPC hs true mask _ fun _ => hspsr)⟩
  case mul =>
    intro sf rd rs rm h
    have hmul : (rd = rm || rd = 15 || rm = 15 || rs = 15 : Bool) = true := by simpa [or_assoc] using h
    exact ⟨stop hmul rfl, fun rn => stop (Bool.or_eq_true_iff.mpr (.inl hmul)) rfl⟩
  case mla => exact fun sf rd rs rm => stop (Bool.or_true _) rfl
  case mulLong =>
    intro sf rdHi rdLo rs rm h
    have hlong : longRegisters rdHi rdLo rs rm = true := by simpa [longRegisters, or_assoc] using h
    exact ⟨stop hlong rfl, stop hlong rfl, stop hlong rfl, stop hlong rfl⟩
  case rmIsPC =>
    intro p u w rn rd amount ty
    refine ⟨⟨stop rfl rfl, stop rfl rfl, stop rfl rfl, stop rfl rfl⟩, fun hrd => ?_⟩
    have hrd := decide_eq_false hrd
    exact ⟨stop₂ hrd rfl rfl, stop₂ hrd rfl rfl, stop₂ hrd rfl rfl, stop₂ hrd rfl rfl, stop₂ hrd rfl rfl, stop₂ hrd rfl rfl,
      stop₂ hrd rfl rfl, stop₂ hrd rfl rfl⟩
  case backImm =>
    intro p u w rd imm imm8 h
    refine ⟨⟨stop (hback h) rfl, stop (hback h) rfl, stop hbackT rfl, stop hbackT rfl⟩, fun hrd => ?_⟩
    have hrd := decide_eq_false hrd
    exact ⟨stop₂ hrd (hback h) rfl, stop₂ hrd (hback h) rfl, stop₂ hrd hbackT rfl, stop₂ hrd hbackT rfl,
      stop₂ hrd (hback h) rfl, stop₂ hrd (hback h) rfl, stop₂ hrd (hback h) rfl, stop₂ hrd (hback h) rfl⟩
  case backReg =>
    intro p u w rd amount ty rm h hrm
    have hrm := decide_eq_false hrm
    refine ⟨⟨stop₂ hrm (hback h) rfl, stop₂ hrm (hback h) rfl, stop₂ hrm hbackT rfl, stop₂ hrm hbackT rfl⟩, fun hrd => ?_⟩
    have hrd := decide_eq_false hrd
    exact ⟨stop₃ hrd hrm (hback h) rfl, stop₃ hrd hrm (hback h) rfl, stop₃ hrd hrm hbackT rfl, stop₃ hrd hrm hbackT rfl,
      stop₃ hrd hrm (hback h) rfl, stop₃ hrd hrm (hback h) rfl, stop₃ hrd hrm (hback h) rfl, stop₃ hrd hrm (hback h) rfl⟩
  case bytePC =>
    exact fun p u w rn imm amount ty rm => ⟨stop rfl rfl, stop rfl rfl, stop rfl rfl, stop rfl rfl, stop rfl rfl, stop rfl rfl,
      stop rfl rfl, stop rfl rfl⟩
  case halfwordPC =>
    exact fun p u w rn imm rm => ⟨stop rfl rfl, stop rfl rfl, stop rfl rfl, stop rfl rfl, stop rfl rfl, stop rfl rfl,
      stop rfl rfl, stop rfl rfl⟩
  case notFirst => exact fun p u rn list h => exec_fault_of_conditional hcond (exec_stmOf ..) (blockStore_baseNotFirst hs h)
  case userBank =>
    exact fun p u w rn list hlist h => ⟨exec_fault_of_conditional hcond (exec_stmOf ..) (blockStore_userBank hs hlist h),
      fun hpc => exec_fault_of_conditional hcond (exec_ldmOf ..) (blockLoad_userBank hs hlist h hpc)⟩
  case basePC =>
    exact fun p u ub w list hlist hbank =>
      ⟨fun hfirst => exec_fault_of_conditional hcond (exec_stmOf ..) (blockStore_basePC hs hlist hbank hfirst),
      fun hpc => exec_fault_of_conditional hcond (exec_ldmOf ..) (blockLoad_basePC hs hlist hbank hpc)⟩
  case returnBasePC =>
    intro p u w list psr hlist hpc hspsr hm
    obtain ⟨m, hm⟩ := Option.isSome_iff_exists.mp hm
    exact exec_fault_of_conditional hcond (exec_ldmOf ..) (blockLoad_return_basePC hs hlist hpc hspsr hm)
  case swap =>
    intro rn rd rm h
    have hregs : (rd = 15 || rm = 15 || rn = 15 || rn = rd || rn = rm : Bool) = true := by simpa [or_assoc] using h
    exact ⟨stop hregs rfl, stop hregs rfl⟩
  case tMul => exact fun rs => checked_stop hs (decide_eq_true rfl)
  case tStmia => exact fun rb list h => blockStore_baseNotFirst hs h
  case tHi =>
    exact fun rs rd => ⟨checked_stop hs rfl, checked_stop hs rfl, checked_stop hs rfl, checked_stop hs rfl, checked_stop hs rfl⟩

/-! ## Empty lists -/

/-- A block transfer stops at an empty list before any other check (R346). -/
theorem checkedBlock_empty {isReturn ub w notFirst : Bool} {rn : Reg} {s : State} {k : Word → Result}
    (h : s.config.emptyRlist = .fault) :
    checkedBlock 0 isReturn ub w notFirst rn s k = .fault (.unpredictable .emptyRegisterList) := if_pos ⟨rfl, h⟩

/-! ## Prefetch hazards -/

/-- A byte of a store lies in one of the two instruction slots after the instruction at the pc (R720, assumption 11). -/
def StoreHits (s : State) (k : StoreKind) (a : Word) : Prop :=
  ∃ j : Nat, j < k.bytes ∧ s.ilen.toNat ≤ (alignTo k.width a + BitVec.ofNat 32 j - s.pc).toNat ∧
    (alignTo k.width a + BitVec.ofNat 32 j - s.pc).toNat < 3 * s.ilen.toNat

/-- A word of a block store lies there. -/
def BlockHits (s : State) (p u : Bool) (rn : Reg) (list : BitVec 16) : Prop :=
  ∃ k : Nat, k < (blockRegs list).1.length ∧
    StoreHits s .word (blockWord (blockTable p u (s.readReg rn) (blockRegs list).2).1 k)

theorem inPrefetch_of_hits {s : State} {k : StoreKind} {a : Word} (h : StoreHits s k a) :
    s.inPrefetch (alignTo k.width a) k.bytes = true := by
  obtain ⟨j, hj, hlow, hhigh⟩ := h
  exact List.any_eq_true.mpr ⟨j, List.mem_range.mpr hj, Bool.and_eq_true_iff.mpr ⟨decide_eq_true hlow, decide_eq_true hhigh⟩⟩

theorem checkedPrefetch_stop {s : State} {hit : Bool} {k : Result} (h : s.config.prefetchHazard = .fault) (hhit : hit = true) :
    s.checkedPrefetch hit k = .fault .prefetchHazard := if_pos ⟨h, hhit⟩

section Hazard
variable {s : State} (hfault : s.config.prefetchHazard = .fault)
include hfault

theorem storeTo_hazard {k : StoreKind} {a : Word} (v : Word) (wb : Option (Reg × Word)) (h : StoreHits s k a) :
    storeTo k a v wb s = .fault .prefetchHazard := checkedPrefetch_stop hfault (inPrefetch_of_hits h)

theorem storeSingle_hazard {k : StoreKind} {p u w : Bool} {rn : Reg} (rd : Reg) {off : Word}
    (hbase : Allowed s ((!p || w) && rn = 15)) (h : StoreHits s k (transferAddr p u rn off s)) :
    storeSingle k p u w rn rd off s = .fault .prefetchHazard := by
  rw [storeSingle, checked_of_allowed (show Allowed s (writesBack p w && rn = 15) from hbase)]
  exact storeTo_hazard hfault _ _ h

theorem swap_hazard (lk : LoadKind) {sk : StoreKind} {rn rd rm : Reg}
    (hregs : Allowed s (rd = 15 || rm = 15 || rn = 15 || rn = rd || rn = rm)) (h : StoreHits s sk (s.readReg rn)) :
    swap lk sk rn rd rm s = .fault .prefetchHazard := by
  rw [swap, checked_of_allowed hregs]
  exact checkedPrefetch_stop hfault (inPrefetch_of_hits h)

theorem blockStore_hazard {p u ub w : Bool} {rn : Reg} {list : BitVec 16} (hlist : list = 0 → s.config.emptyRlist = .arm7)
    (hbase : Allowed s (rn = 15)) (hfirst : Allowed s (baseNotLowest w rn list))
    (hbank : Allowed s (ub && (s.mode == .usr || s.mode == .sys || w))) (h : BlockHits s p u rn list) :
    blockStore p u ub w rn list s = .fault .prefetchHazard := by
  have hbank' : Allowed s (badUserBank false ub w s) := fun hs => by simpa [badUserBank] using hbank hs
  have hfirst' : Allowed s (baseNotFirst w rn (effectiveList list)) := fun hs => (baseNotFirst_eq w rn list).trans (hfirst hs)
  rw [blockStore_eq, checkedBlock_pass hlist hbank' hfirst', if_neg Bool.false_ne_true, checked_of_allowed hbase]
  simp only [BlockHits, blockRegs_eq, blockTable_eq] at h
  obtain ⟨k, hk, hits⟩ := h
  have hin := inPrefetch_of_hits hits
  rw [show alignTo StoreKind.word.width (blockWord (blockStart p u (s.readReg rn) (effectiveCount list)) k) = _ from
    alignWord_idem (blockStart p u (s.readReg rn) (effectiveCount list) + BitVec.ofNat 32 (4 * k))] at hin
  exact checkedPrefetch_stop hfault (List.any_eq_true.mpr ⟨k, List.mem_range.mpr hk, hin⟩)

end Hazard

/-- Settles O59: an empty list is the first check of a block transfer, and the hazard the last of a store. -/
theorem emptyListAndHazardStops : Obligations.EmptyListAndHazardStops := by
  intro cond s hcond empty hazard hits blockHits
  refine ⟨fun hempty => ⟨fun p u ub w rn => ⟨?_, ?_⟩, ?_, ?_, fun rb => ⟨?_, ?_⟩⟩, fun hfault => ?_⟩
  · exact exec_fault_of_conditional hcond (exec_ldmOf ..) (checkedBlock_empty hempty)
  · exact exec_fault_of_conditional hcond (exec_stmOf ..) (checkedBlock_empty hempty)
  · exact checkedBlock_empty hempty
  · exact checkedBlock_empty hempty
  · exact checkedBlock_empty hempty
  · exact checkedBlock_empty hempty
  have direct {i : Instr} {body : Result} (hexec : exec i s = conditional cond s body) (h : body = .fault .prefetchHazard) :
      hazard i :=
    exec_fault_of_conditional hcond hexec h
  have pass {bad : Bool} {c : UnpredictableCase} {k : Result} {i : Instr} (hbad : Allowed s bad)
      (hexec : exec i s = conditional cond s (s.checked bad c k)) (h : k = .fault .prefetchHazard) : hazard i :=
    exec_fault_of_conditional hcond hexec ((checked_of_allowed hbad).trans h)
  have pass₂ {bad bad' : Bool} {c c' : UnpredictableCase} {k : Result} {i : Instr} (hbad : Allowed s bad) (hbad' : Allowed s bad')
      (hexec : exec i s = conditional cond s (s.checked bad c (s.checked bad' c' k))) (h : k = .fault .prefetchHazard) :
      hazard i :=
    exec_fault_of_conditional hcond hexec ((checked_of_allowed hbad).trans ((checked_of_allowed hbad').trans h))
  refine ⟨?imm, ?reg, ?half, ?block, ?swap, ?thumb, ?thumbBlock⟩
  case imm =>
    intro p u w rn rd imm hbase a
    refine ⟨fun h => ⟨direct rfl (storeSingle_hazard hfault rd hbase h), ?_⟩,
      fun h hrd => ⟨pass hrd rfl (storeSingle_hazard hfault rd hbase h), ?_⟩⟩
    · rintro rfl
      exact direct rfl (storeSingle_hazard hfault rd hbase h)
    · rintro rfl
      exact pass hrd rfl (storeSingle_hazard hfault rd hbase h)
  case reg =>
    intro p u w rn rd amount ty rm hbase hrm a
    refine ⟨fun h => ⟨pass hrm rfl (storeSingle_hazard hfault rd hbase h), ?_⟩,
      fun h hrd => ⟨pass₂ hrd hrm rfl (storeSingle_hazard hfault rd hbase h), ?_⟩⟩
    · rintro rfl
      exact pass hrm rfl (storeSingle_hazard hfault rd hbase h)
    · rintro rfl
      exact pass₂ hrd hrm rfl (storeSingle_hazard hfault rd hbase h)
  case half =>
    exact fun p u w rn rd hbase hrd => ⟨fun imm h => pass hrd rfl (storeSingle_hazard hfault rd hbase h),
      fun rm hrm h => pass₂ hrd hrm rfl (storeSingle_hazard hfault rd hbase h)⟩
  case block =>
    exact fun p u ub w rn list hlist hbase hfirst hbank h =>
      direct (exec_stmOf ..) (blockStore_hazard hfault hlist hbase hfirst hbank h)
  case swap =>
    exact fun rn rd rm hregs => ⟨fun h => direct rfl (swap_hazard hfault .word hregs h),
      fun h => direct rfl (swap_hazard hfault .byte hregs h)⟩
  case thumb =>
    intro ro rb rd imm5 imm8 base indexed off5
    have hscaled {k : StoreKind} {b : Word} {n : Nat} {imm : BitVec n} {sh : Nat} (v : Word)
        (h : StoreHits s k (b + BitVec.ofNat 32 (2 ^ sh * imm.toNat))) :
        storeTo k (b + scaled imm sh) v none s = .fault .prefetchHazard := by
      rw [scaled_eq_mul]
      exact storeTo_hazard hfault v none h
    exact ⟨storeTo_hazard hfault _ none, storeTo_hazard hfault _ none, storeTo_hazard hfault _ none, hscaled (sh := 2) _,
      hscaled (sh := 0) _, hscaled (sh := 1) _, hscaled (sh := 2) _⟩
  case thumbBlock =>
    intro lr rb list pushed low
    refine ⟨fun hlist h => ?_, fun hlist hfirst h => ?_⟩
    · exact (congrArg (blockStore true false false true 13 · s) (stackList_push lr list)).trans
        (blockStore_hazard hfault hlist (fun _ => rfl) (fun _ => baseNotLowest_push lr list) (fun _ => rfl) h)
    · exact blockStore_hazard hfault hlist (fun _ => decide_eq_false (lo_ne_pc rb)) hfirst (fun _ => rfl) h

end Sys2Proof.Machine
